-- ==== Sys2Proof/Word.lean ====
section
/-! DEFINITION. The word and byte of PKC-CORE: 32-bit registers and bus data (`W = 32`, spec R6), 8-bit
bytes of a block (R65). -/

namespace Sys2Proof

/-- A register, a bus word, one raw draw: `W = RAW_W = 32` bits (spec R6). -/
abbrev Word := BitVec 32

/-- One byte of a block (spec R65). -/
abbrev Byte := BitVec 8

end Sys2Proof
end

