-- ==== Sys2Proof/Config.lean ====
section
/-! DEFINITION. What is fixed for the machine: the parameters of spec R5 and R6, the OPEN parameter
MAX_ATTEMPTS (R7) and the free values of the random source (R72, 93 U1, U2, U14). -/

namespace Sys2Proof
namespace Config

/-- `R_TRIALS` (spec R5): Miller–Rabin trials per oracle call. -/
abbrev rTrials : Nat := 10

/-- `SEED_MAX` (spec R5): the largest legal KEYGEN seed. -/
abbrev seedMax : Nat := 10000

/-- `XW` (spec R6): exponent bits ModPow scans, most significant first. -/
abbrev xw : Nat := 32

/-- `G_FIXED` (spec R5): the fixed generator. -/
abbrev gFixed : Nat := 2

/-- `ID_VALUE` (spec R6, R33): what the ID register reads. -/
abbrev idValue : Word := 0x504B4331#32

/-- The OPEN parameter MAX_ATTEMPTS less one (spec R7). Nothing constrains it beyond the range the spec
gives: MAX_ATTEMPTS lies in `[1, 2^32 - 1]`, so this value lies in `[0, 2^32 - 2]`. Assumption log 5. -/
opaque maxAttemptsLessOne : Fin 4294967295

/-- `MAX_ATTEMPTS` (spec R7): any natural number with `1 <= MAX_ATTEMPTS <= 2^32 - 1`. -/
def maxAttempts : Nat := maxAttemptsLessOne.val + 1

/-- FREE VALUE. What the random source hands out, as a function of what it was last seeded with (`none`:
never seeded) and of how many values it has handed out since (spec R45, R71, R72; 93 U1, U2, U14). No law
holds of it beyond its being a function: equal seeds give equal streams. Assumption log 3. -/
opaque rngStream : Option Word → Nat → Word

end Config
end Sys2Proof
end

