-- ==== Sys2Proof/Syntax.lean ====
section
/-! DEFINITION. What the host can ask for: the register locations (spec R21), a bus access (R9, R11), and the
eleven instructions of the opcode table (R92, R96). -/

namespace Sys2Proof

/-- The twenty-one locations of the register table (spec R21). -/
inductive Reg where
  | cmd | status | faultlog | id | seed | a | b | n | r | p | g | e | d | q | c1 | c2 | m
  | bin | bout | attempts | drawcnt
  deriving DecidableEq, Repr

/-- A bus access: `MemRead(addr, size)` and `MemWrite(addr, size, data)` of spec R9, well-formed or not
(R62). An access of another size than 4 is refused whatever its data, so data is a word (log entry 13). -/
inductive Access where
  | read  (size addr : Nat)
  | write (size addr : Nat) (data : Word)
  deriving DecidableEq, Repr

/-- The instructions of PKC-CORE (spec R13): one constructor per row of the opcode table. -/
inductive Instr where
  /-- `R <- A^B mod N` (spec R130). -/
  | modpow
  /-- `R <- MR(N)` (spec R110). -/
  | mrtest
  /-- Safe-prime search into Q, P, ATTEMPTS (spec R152). -/
  | spsearch
  /-- Key generation from SEED (spec R170). -/
  | keygen
  /-- Encrypt the block in IBUF (spec R191). -/
  | enc
  /-- Decrypt C1, C2 (spec R210). -/
  | dec
  /-- Restore the reset state (spec R230). -/
  | srst
  /-- Empty both block buffers (spec R231). -/
  | flush
  /-- Seed the random source from SEED (spec R177). -/
  | rseed
  /-- Append the byte `data[7:0]` to the input buffer (spec R190); `data` is the whole written word. -/
  | push (data : Word)
  /-- Take the next byte of the output buffer (spec R215). -/
  | pop
  deriving DecidableEq, Repr

end Sys2Proof
end

