-- ==== Sys2Proof/WellFormed.lean ====
section
/-! DEFINITION. Which instructions the encoding admits (spec R93, R96): the only operand is the data of a
PUSH, whose bits 31 to 8 must be zero. -/

namespace Sys2Proof

/-- The data constraint of a PUSH: `v[31:8] = 0` (spec R96). -/
def pushDataOk (v : Word) : Bool := v >>> 8 = 0#32

/-- The instruction is one the encoding admits. -/
def Instr.wellFormed : Instr → Bool
  | .modpow => true
  | .mrtest => true
  | .spsearch => true
  | .keygen => true
  | .enc => true
  | .dec => true
  | .srst => true
  | .flush => true
  | .rseed => true
  | .push v => pushDataOk v
  | .pop => true

end Sys2Proof
end

