-- ==== Sys2Proof/Decode.lean ====
section
/-! DEFINITION. From a bus access to what it asks for (spec R62 to R64, R91, R92, R96), total and refusing by
name; the encoder written from the same tables; and the table-word reading the host asks for. -/

namespace Sys2Proof

/-- Why an access asks for nothing. The first two are command errors (spec R91: the access is legal and the
command it starts ends with IllegalRequest); the others are illegal accesses (spec R64 (a) to (f)). The cases
(g) and (h) of R64 depend on the buffers and are the meaning of PUSH and POP. -/
inductive DecodeError where
  /-- CMD word with a bit of RSVD set (spec R91). -/
  | commandReservedBits
  /-- CMD word whose OPCODE is none of the nine (spec R91, R94). -/
  | commandUnassigned
  /-- not 4 bytes (spec R62, R64 (a)). -/
  | accessSize
  /-- offset not a multiple of 4 (spec R62, R64 (a)). -/
  | accessMisaligned
  /-- offset 0x100 or above (spec R62, R64 (a)). -/
  | accessOutsideWindow
  /-- reserved offset 0x54 to 0xFC (spec R64 (b)). -/
  | accessReserved
  /-- read of a write-only location (spec R64 (c)). -/
  | accessWriteOnly
  /-- write of a read-only location (spec R64 (d)). -/
  | accessReadOnly
  /-- write of FAULTLOG with a reserved bit set (spec R64 (e)). -/
  | accessLogReservedBits
  /-- write of BIN with `v[31:8] != 0` (spec R64 (f)). -/
  | accessPushData
  deriving DecidableEq, Repr

/-- What a decoded access asks for: an instruction, a plain read (spec R232) or a plain write (spec R233, and
the clearing write of FAULTLOG, R32). -/
inductive Request where
  | instr (i : Instr)
  | readReg (loc : Reg)
  | writeReg (loc : Reg) (v : Word)
  deriving DecidableEq, Repr

/-- The address map (spec R21, R67): byte offset and location. -/
def registerMap : List (Nat × Reg) :=
  [(0x00, .cmd), (0x04, .status), (0x08, .faultlog), (0x0C, .id), (0x10, .seed), (0x14, .a), (0x18, .b)]
  ++ [(0x1C, .n), (0x20, .r), (0x24, .p), (0x28, .g), (0x2C, .e), (0x30, .d), (0x34, .q)]
  ++ [(0x38, .c1), (0x3C, .c2), (0x40, .m), (0x44, .bin), (0x48, .bout), (0x4C, .attempts), (0x50, .drawcnt)]

/-- The location at a byte offset; `none` where the map has none (spec R21). -/
def Reg.atOffset (addr : Nat) : Option Reg := registerMap.lookup addr

/-- The byte offset of a location (spec R21). -/
def Reg.offset : Reg → Nat
  | .cmd => 0x00 | .status => 0x04 | .faultlog => 0x08 | .id => 0x0C | .seed => 0x10
  | .a => 0x14 | .b => 0x18 | .n => 0x1C | .r => 0x20 | .p => 0x24 | .g => 0x28 | .e => 0x2C
  | .d => 0x30 | .q => 0x34 | .c1 => 0x38 | .c2 => 0x3C | .m => 0x40 | .bin => 0x44
  | .bout => 0x48 | .attempts => 0x4C | .drawcnt => 0x50

/-- The opcode map (spec R92): OPCODE and command. -/
def opcodeMap : List (Nat × Instr) :=
  [(0x01, .modpow), (0x02, .mrtest), (0x03, .spsearch), (0x04, .keygen), (0x05, .enc)]
  ++ [(0x06, .dec), (0x07, .srst), (0x08, .flush), (0x09, .rseed)]

/-- Decode of a CMD word (spec R91): RSVD must be zero, OPCODE must be one of the nine. -/
def decodeCommand (w : Word) : Except DecodeError Request :=
  if w >>> 8 ≠ 0#32 then .error .commandReservedBits
  else
    match opcodeMap.lookup (w.toNat % 256) with
    | some i => .ok (.instr i)
    | none => .error .commandUnassigned

/-- The bits of FAULTLOG that may be set in a write: bits 1 to 4 (spec R32). -/
def logMask : Word := 0x0000001E#32

/-- A legal-size read of a location (spec R63, R64 (c), R96). -/
def decodeRead : Reg → Except DecodeError Request
  | .cmd => .error .accessWriteOnly
  | .bin => .error .accessWriteOnly
  | .bout => .ok (.instr .pop)
  | .status => .ok (.readReg .status)
  | .faultlog => .ok (.readReg .faultlog)
  | .id => .ok (.readReg .id)
  | .seed => .ok (.readReg .seed)
  | .a => .ok (.readReg .a)
  | .b => .ok (.readReg .b)
  | .n => .ok (.readReg .n)
  | .r => .ok (.readReg .r)
  | .p => .ok (.readReg .p)
  | .g => .ok (.readReg .g)
  | .e => .ok (.readReg .e)
  | .d => .ok (.readReg .d)
  | .q => .ok (.readReg .q)
  | .c1 => .ok (.readReg .c1)
  | .c2 => .ok (.readReg .c2)
  | .m => .ok (.readReg .m)
  | .attempts => .ok (.readReg .attempts)
  | .drawcnt => .ok (.readReg .drawcnt)

/-- A legal-size write of a location (spec R63, R64 (d) to (f), R91, R96). -/
def decodeWrite (v : Word) : Reg → Except DecodeError Request
  | .cmd => decodeCommand v
  | .bin => if v >>> 8 = 0#32 then .ok (.instr (.push v)) else .error .accessPushData
  | .faultlog => if v &&& ~~~logMask = 0#32 then .ok (.writeReg .faultlog v) else .error .accessLogReservedBits
  | .status => .error .accessReadOnly
  | .id => .error .accessReadOnly
  | .r => .error .accessReadOnly
  | .q => .error .accessReadOnly
  | .m => .error .accessReadOnly
  | .bout => .error .accessReadOnly
  | .attempts => .error .accessReadOnly
  | .drawcnt => .error .accessReadOnly
  | .seed => .ok (.writeReg .seed v)
  | .a => .ok (.writeReg .a v)
  | .b => .ok (.writeReg .b v)
  | .n => .ok (.writeReg .n v)
  | .p => .ok (.writeReg .p v)
  | .g => .ok (.writeReg .g v)
  | .e => .ok (.writeReg .e v)
  | .d => .ok (.writeReg .d v)
  | .c1 => .ok (.writeReg .c1 v)
  | .c2 => .ok (.writeReg .c2 v)

/-- The location a well-formed access reaches (spec R62, R64 (a), (b)). -/
def decodeLocation (size addr : Nat) : Except DecodeError Reg :=
  if size ≠ 4 then .error .accessSize
  else if addr % 4 ≠ 0 then .error .accessMisaligned
  else if 0x100 ≤ addr then .error .accessOutsideWindow
  else
    match Reg.atOffset addr with
    | some loc => .ok loc
    | none => .error .accessReserved

/-- Decode of a bus access: first its legality, then, for CMD, the word (spec R247). Total: every access is
either a request or an error by name. -/
def decode : Access → Except DecodeError Request
  | .read size addr =>
    match decodeLocation size addr with
    | .ok loc => decodeRead loc
    | .error x => .error x
  | .write size addr v =>
    match decodeLocation size addr with
    | .ok loc => decodeWrite v loc
    | .error x => .error x

/-- The access that selects an instruction (spec R92, R96): the encoder. -/
def encode : Instr → Access
  | .modpow => .write 4 0x00 0x00000001#32
  | .mrtest => .write 4 0x00 0x00000002#32
  | .spsearch => .write 4 0x00 0x00000003#32
  | .keygen => .write 4 0x00 0x00000004#32
  | .enc => .write 4 0x00 0x00000005#32
  | .dec => .write 4 0x00 0x00000006#32
  | .srst => .write 4 0x00 0x00000007#32
  | .flush => .write 4 0x00 0x00000008#32
  | .rseed => .write 4 0x00 0x00000009#32
  | .push v => .write 4 0x44 v
  | .pop => .read 4 0x48

/-- The instruction an access is decoded to, if it is one. -/
def decodeInstr (x : Access) : Option Instr :=
  match decode x with
  | .ok (.instr i) => some i
  | .ok (.readReg _) => none
  | .ok (.writeReg _ _) => none
  | .error _ => none

/-- The access behind an opcode-table word. The table's words do not hold the access that selects the row
(spec R99: "first select by bus_op and offset"), so it is found here: POP is the one row with no word of 32
bits (a read carries no data), a word the command decoder knows is a write of CMD, a word below 256 that it does
not know is a write of BIN, and any other is a write of CMD (which the decoder refuses). Assumption log 8. -/
def tableAccess (nbits w : Nat) : Access :=
  if nbits < 32 then .read 4 0x48
  else
    match decodeInstr (.write 4 0x00 (BitVec.ofNat 32 w)) with
    | some _ => .write 4 0x00 (BitVec.ofNat 32 w)
    | none => if w < 256 then .write 4 0x44 (BitVec.ofNat 32 w) else .write 4 0x00 (BitVec.ofNat 32 w)

/-- The instruction this decoder reads from an opcode-table word of `nbits` bits. -/
def decodeTableWord (nbits w : Nat) : Option Instr := decodeInstr (tableAccess nbits w)

end Sys2Proof
end

