-- ==== Sys2Proof/Machine/State.lean ====
section
/-! DEFINITION. The state of PKC-CORE (spec R20 to R48), the random source carried beside it (R45), the host's
actions still to come (R10, R11), and the state after reset (R47, R270). -/

namespace Sys2Proof
namespace Machine

/-- The error kinds a command can raise (spec R241). They are reported in STATUS and FAULTLOG by a next state
(R245); none of them stops the machine. -/
inductive ErrKind where
  | invalidSeed
  | primeSearchExhausted
  | arithmeticInvariant
  | illegalRequest
  deriving DecidableEq, Repr

/-- The response of the bus to a host transaction (spec R61). -/
inductive Response where
  /-- OKAY to a read, with 32 bits of data. -/
  | okayRead (data : Word)
  /-- OKAY to a write. -/
  | okayWrite
  /-- SLVERR: the access was illegal; a read carries no data. -/
  | slverr
  deriving DecidableEq, Repr

/-- One action of the host (spec R10, R11, R17). -/
inductive HostAction where
  /-- The reset input (spec R270). -/
  | reset
  /-- A bus transaction (spec R11, R75). -/
  | access (a : Access)
  /-- The host seeds the random source by a path of its own, outside the core (spec R35, R74). DESIGN CHOICE, unsafe (log 7):
  the spec gives that path no width (R70: "seeded with an integer"); the seed here is a 32-bit word, like that of R71, and
  the stream it starts is the one the core's `RngSeed` of the same word starts. -/
  | seedSource (v : Word)
  deriving DecidableEq, Repr

/-- The random source (spec R45): external, carried beside the core's state. `streams` holds stream values the
environment has fixed, by seed; every value it does not hold is the free value `Config.rngStream`. -/
structure Rng where
  /-- What the source was last seeded with; `none` before the first seeding. -/
  seed : Option Word
  /-- How many values it has handed out since. -/
  pos : Nat
  /-- The first values of some streams, where the environment fixes them (93 U14). -/
  streams : List (Option Word × List Word)
  deriving DecidableEq, Repr

/-- The random-source port (spec R70): the source, and the core's count of draws (DRAWCNT, R35). -/
structure RngPort where
  rng : Rng
  drawcnt : Word
  deriving DecidableEq, Repr

/-- Why a step stops. There is no such reason: "every step is total" (spec 93, Part 1; R15, R91). A command error
(R245) and an illegal access (R64) are next states. Assumption log 14. -/
inductive Fault where
  deriving DecidableEq, Repr

/-- Why an instruction has no meaning here. -/
inductive Refusal where
  /-- Raised by an arm of `exec` whose instruction is not modelled yet, and by nothing else; safe. No arm of this
  model raises it. -/
  | notModelled (mnemonic : String)
  deriving DecidableEq, Repr

/-- Everything the spec gives the machine, and beside it the host's actions to come and the last response. -/
structure State where
  /-- SEED (spec R29). -/
  seed : Word
  /-- A, ModPow base (spec R23). -/
  a : Word
  /-- B, ModPow exponent (spec R23). -/
  b : Word
  /-- N, ModPow modulus and MRTEST input (spec R23). -/
  n : Word
  /-- R, MODPOW result and MRTEST verdict (spec R24). -/
  r : Word
  /-- P, key modulus (spec R25). -/
  p : Word
  /-- G, key generator (spec R25). -/
  g : Word
  /-- E, public component (spec R25). -/
  e : Word
  /-- D, private exponent (spec R25). -/
  d : Word
  /-- Q, the accepted candidate of the last successful search (spec R26). -/
  q : Word
  /-- C1, ciphertext first component (spec R27). -/
  c1 : Word
  /-- C2, ciphertext second component (spec R27). -/
  c2 : Word
  /-- M, block value of the last ENC or DEC (spec R28). -/
  m : Word
  /-- ATTEMPTS, candidates sampled by the last search (spec R34). -/
  attempts : Word
  /-- STATUS.DONE (spec R30). -/
  done : Bool
  /-- STATUS.ERR (spec R30). -/
  err : Bool
  /-- STATUS.ERRCODE (spec R30). -/
  errcode : BitVec 4
  /-- FAULTLOG, sticky bits 1 to 4 (spec R32). -/
  faultlog : Word
  /-- IBUF, the bytes pushed, right-aligned (spec R40). -/
  ibuf : Word
  /-- ICNT, how many (spec R41). -/
  icnt : BitVec 3
  /-- OBUF, the decrypted bytes not yet popped, left-aligned (spec R42). -/
  obuf : Word
  /-- OCNT, how many (spec R43). -/
  ocnt : BitVec 3
  /-- The random-source port: the external source (spec R45) and DRAWCNT (spec R35). -/
  port : RngPort
  /-- The response to the last host transaction (spec R61). The model's own field (log 6). -/
  resp : Option Response
  /-- What the host will do, oldest first (spec R75). The model's own field (log 1). -/
  host : List HostAction
  deriving DecidableEq, Repr

/-- The state right after reset (spec R47, R270): every register, flag and buffer is 0. The source is the model's
choice, since reset leaves it unspecified (R45): never seeded, nothing of its stream known (log 4). -/
def State.reset : State :=
  { seed := 0, a := 0, b := 0, n := 0, r := 0, p := 0, g := 0, e := 0, d := 0, q := 0, c1 := 0, c2 := 0, m := 0,
    attempts := 0, done := false, err := false, errcode := 0, faultlog := 0, ibuf := 0, icnt := 0, obuf := 0,
    ocnt := 0, port := ⟨⟨none, 0, []⟩, 0⟩, resp := none, host := [] }

/-- What one step of the machine answers. -/
abbrev Answer := Host.Outcome State Fault Refusal

end Machine
end Sys2Proof
end

