-- ==== Sys2Proof/Machine/Flags.lean ====
section
/-! DEFINITION. STATUS and FAULTLOG: the error codes (spec R241), the STATUS word as a read sees it (R30, R232),
and the writes of the log (R32). -/

namespace Sys2Proof
namespace Machine

/-- The code of an error kind: the value of ERRCODE and the number of its FAULTLOG bit (spec R241). -/
def errCode : ErrKind → BitVec 4
  | .invalidSeed => 1#4
  | .primeSearchExhausted => 2#4
  | .arithmeticInvariant => 3#4
  | .illegalRequest => 4#4

/-- The FAULTLOG bit of an error kind (spec R32, R245). -/
def logBit (k : ErrKind) : Word := 1#32 <<< (errCode k).toNat

/-- FAULTLOG with the bit of an error kind set (spec R32). -/
def logSet (log : Word) (k : ErrKind) : Word := log ||| logBit k

/-- FAULTLOG after the host writes `v` with no reserved bit set: write-one-to-clear (spec R32). -/
def logClear (log v : Word) : Word := log &&& ~~~v

/-- A flag as a word, at bit 0. -/
def flagWord (x : Bool) : Word := if x then 1#32 else 0#32

/-- The STATUS word (spec R30): DONE at 0, ERR at 1, ERRCODE at 7:4, ICNT at 10:8, OCNT at 14:12, the other
bits 0. ICNT and OCNT are live views of the buffer counters. -/
def statusWord (s : State) : Word :=
  flagWord s.done ||| (flagWord s.err <<< 1) ||| (s.errcode.setWidth 32 <<< 4) ||| (s.icnt.setWidth 32 <<< 8)
    ||| (s.ocnt.setWidth 32 <<< 12)

end Machine
end Sys2Proof
end

