-- ==== Sys2Proof/Machine/Ops.lean ====
section
/-! DEFINITION. The operations every meaning is written over: the end of a command, successful (spec R31) or by an
error (R245, the one shared operation of taking an error; there is no return from one, R252), the illegal access
(R64, R246), the reset state (R47, R48), and the two requests of the random-source port (R71, R72). -/

namespace Sys2Proof
namespace Machine

/-- A command ends successfully (spec R31): DONE set, ERR and ERRCODE cleared; the CMD write answers OKAY (R61). -/
def State.complete (s : State) : State :=
  { s with done := true, err := false, errcode := 0#4, resp := some .okayWrite }

/-- A command ends by `raise k` (spec R245): DONE, ERR, ERRCODE and the sticky log bit; the CMD write answers OKAY;
everything the command did before keeps its effect and nothing else is written. -/
def State.raiseError (s : State) (k : ErrKind) : State :=
  { s with done := true, err := true, errcode := errCode k, faultlog := logSet s.faultlog k,
           resp := some .okayWrite }

/-- An illegal access (spec R64, R246): SLVERR, `FAULTLOG[4] <- 1`, nothing else. -/
def State.illegalAccess (s : State) : State :=
  { s with faultlog := logSet s.faultlog .illegalRequest, resp := some .slverr }

/-- A read answers OKAY with data (spec R61). -/
def State.answerRead (s : State) (data : Word) : State := { s with resp := some (.okayRead data) }

/-- A write answers OKAY (spec R61). -/
def State.answerWrite (s : State) : State := { s with resp := some .okayWrite }

/-- The core in its reset state (spec R47, R48, R271): every storage element at its reset value, the random source
and the host untouched, no response given. -/
def State.resetCore (s : State) : State :=
  { State.reset with port := { rng := s.port.rng, drawcnt := 0#32 }, host := s.host }

/-- The value the source hands out next (spec R72): one the environment fixed, else the free value. -/
def Rng.value (g : Rng) : Word :=
  ((g.streams.lookup g.seed).bind (fun vs => vs[g.pos]?)).getD (Config.rngStream g.seed g.pos)

/-- The source re-initialises its stream from `v` (spec R71). -/
def Rng.reseed (g : Rng) (v : Word) : Rng := { g with seed := some v, pos := 0 }

/-- The source advances by one value (spec R72). -/
def Rng.advance (g : Rng) : Rng := { g with pos := g.pos + 1 }

/-- `RngSeed(v)` (spec R71): the stream restarts from `v` and DRAWCNT is cleared. -/
def RngPort.rngSeed (t : RngPort) (v : Word) : RngPort := { rng := t.rng.reseed v, drawcnt := 0#32 }

/-- `Draw()` (spec R72): the next raw value; the stream advances by one and DRAWCNT counts it modulo `2^32`. -/
def RngPort.draw (t : RngPort) : Word × RngPort :=
  (t.rng.value, { rng := t.rng.advance, drawcnt := t.drawcnt + 1#32 })

end Machine
end Sys2Proof
end

