-- ==== Sys2Proof/Machine/Operands.lean ====
section
/-! DEFINITION. The operand forms: the registers as plain accesses see them (spec R232, R233, R32), and the block
buffers as byte queues (R38 to R43, R65, R192). -/

namespace Sys2Proof
namespace Machine

/-- What a plain read of a location returns (spec R232). The three ports have no storage (R36, R38, R39) and give
nothing: the decoder never asks for them. -/
def State.readReg (s : State) : Reg → Option Word
  | .cmd => none
  | .bin => none
  | .bout => none
  | .status => some (statusWord s)
  | .faultlog => some s.faultlog
  | .id => some Config.idValue
  | .seed => some s.seed
  | .a => some s.a
  | .b => some s.b
  | .n => some s.n
  | .r => some s.r
  | .p => some s.p
  | .g => some s.g
  | .e => some s.e
  | .d => some s.d
  | .q => some s.q
  | .c1 => some s.c1
  | .c2 => some s.c2
  | .m => some s.m
  | .attempts => some s.attempts
  | .drawcnt => some s.port.drawcnt

/-- A plain write of a location (spec R233): the ten RW registers store the value, FAULTLOG clears bits (R32). The
other locations take no plain write: the decoder never asks for one. -/
def State.writeReg (s : State) (v : Word) : Reg → Option State
  | .seed => some { s with seed := v }
  | .a => some { s with a := v }
  | .b => some { s with b := v }
  | .n => some { s with n := v }
  | .p => some { s with p := v }
  | .g => some { s with g := v }
  | .e => some { s with e := v }
  | .d => some { s with d := v }
  | .c1 => some { s with c1 := v }
  | .c2 => some { s with c2 := v }
  | .faultlog => some { s with faultlog := logClear s.faultlog v }
  | .cmd => none
  | .status => none
  | .id => none
  | .r => none
  | .q => none
  | .m => none
  | .bin => none
  | .bout => none
  | .attempts => none
  | .drawcnt => none

/-- A byte enters the input buffer (spec R38): shifted in at the right. -/
def State.pushByte (s : State) (x : Byte) : State :=
  { s with ibuf := (s.ibuf <<< 8) ||| x.setWidth 32, icnt := s.icnt + 1#3 }

/-- A byte leaves the output buffer (spec R39): shifted out at the left. -/
def State.popByte (s : State) : State := { s with obuf := s.obuf <<< 8, ocnt := s.ocnt - 1#3 }

/-- The byte that leaves next, `zext_32(OBUF[31:24])` (spec R39). -/
def State.nextByte (s : State) : Word := s.obuf >>> 24

/-- Bit 31 cleared: `v & 0x7FFFFFFF` (spec R192, R213). -/
def clearTop (v : Word) : Word := v &&& 0x7FFFFFFF#32

/-- The block held in the input buffer (spec R191, R192): padded on the right with zero bytes to four, bit 31
cleared. -/
def State.block (s : State) : Word := clearTop (s.ibuf <<< (8 * (4 - s.icnt.toNat)))

end Machine
end Sys2Proof
end

