-- ==== Sys2Proof/Machine/ModPow.lean ====
section
/-! DEFINITION. ModPow (spec R132 to R136) and the MODPOW command (R130, R131). -/

namespace Sys2Proof
namespace Machine

/-- One iteration of the scan (spec R133): square, then multiply where the exponent's bit is set. Products are
exact; they stay below `2^64` (R134). -/
def modPowStep (a n : Nat) (bit : Bool) (acc : Nat) : Nat :=
  let sq := acc * acc % n
  if bit then sq * a % n else sq

/-- The running value after the first `k` iterations (spec R133): they read bits 31, 30, … of `b`. -/
def modPowAcc (a b n : Nat) : Nat → Nat
  | 0 => 1
  | k + 1 => modPowStep a n (b.testBit (Config.xw - 1 - k)) (modPowAcc a b n k)

/-- `ModPow(a, b, n)` (spec R133): all 32 iterations, always. -/
def modPow (a b n : Nat) : Nat := modPowAcc a b n Config.xw

/-- MODPOW (spec R130): `N = 0` raises ArithmeticInvariantViolation (R131), else R takes the power. -/
def modpowState (s : State) : State :=
  if s.n = 0#32 then s.raiseError .arithmeticInvariant
  else State.complete { s with r := BitVec.ofNat 32 (modPow s.a.toNat s.b.toNat s.n.toNat) }

/-- The meaning of MODPOW (spec R130). -/
def execModpow (s : State) : Answer := .next (modpowState s)

end Machine
end Sys2Proof
end

