-- ==== Sys2Proof/Machine/Cipher.lean ====
section
/-! DEFINITION. BlockCipher: PUSH (spec R190), ENC (R191 to R196), DEC (R210 to R214), POP (R215). -/

namespace Sys2Proof
namespace Machine

/-- PUSH (spec R190): data above 0xFF or a full buffer is an illegal access, else the byte enters the buffer. -/
def pushState (v : Word) (s : State) : State :=
  if v >>> 8 ≠ 0#32 ∨ s.icnt = 4#3 then s.illegalAccess
  else (s.pushByte (v.setWidth 8)).answerWrite

/-- The meaning of PUSH (spec R190). -/
def execPush (v : Word) (s : State) : Answer := .next (pushState v s)

/-- The ephemeral exponent of a raw draw: `raw mod p` (spec R194). -/
def ephemeral (p : Nat) (raw : Word) : Nat := raw.toNat % p

/-- `c1 = ModPow(g, k, p)` (spec R195). -/
def cipherFirst (g k p : Nat) : Nat := modPow g k p

/-- `c2 = (ModPow(e, k, p) * m) mod p` (spec R195). -/
def cipherSecond (e k p m : Nat) : Nat := modPow e k p * m % p

/-- ENC after its checks (spec R191): one draw, the pair and the block written, the input buffer emptied (R196). -/
def encCommit (s : State) : State :=
  let k := ephemeral s.p.toNat s.port.draw.1
  State.complete { s with
    port := s.port.draw.2
    c1 := BitVec.ofNat 32 (cipherFirst s.g.toNat k s.p.toNat)
    c2 := BitVec.ofNat 32 (cipherSecond s.e.toNat k s.p.toNat s.block.toNat)
    m := s.block
    ibuf := 0#32
    icnt := 0#3 }

/-- ENC (spec R191): the checks of R193 in their order, all before the draw, then the commit. -/
def encState (s : State) : State :=
  if s.icnt = 0#3 then s.raiseError .illegalRequest
  else if s.p = 0#32 then s.raiseError .arithmeticInvariant
  else if s.p.toNat ≤ s.block.toNat then s.raiseError .arithmeticInvariant
  else encCommit s

/-- The meaning of ENC (spec R191). -/
def execEnc (s : State) : Answer := .next (encState s)

/-- `(ModPow(c1, p-1-d, p) * (c2 mod p)) mod p` (spec R210, R211). -/
def plainOf (p d c1 c2 : Nat) : Nat := modPow c1 (p - 1 - d) p * (c2 % p) % p

/-- The block DEC recovers: the formula, then bit 31 cleared (spec R210, R213). -/
def State.decrypted (s : State) : Word :=
  clearTop (BitVec.ofNat 32 (plainOf s.p.toNat s.d.toNat s.c1.toNat s.c2.toNat))

/-- DEC (spec R210): the checks of R212 in their order, then M and the output buffer (R214). No draw. -/
def decState (s : State) : State :=
  if s.ocnt ≠ 0#3 then s.raiseError .illegalRequest
  else if s.p = 0#32 then s.raiseError .arithmeticInvariant
  else if s.p.toNat ≤ s.d.toNat then s.raiseError .arithmeticInvariant
  else if s.p.toNat ≤ s.c1.toNat ∨ s.p.toNat ≤ s.c2.toNat then s.raiseError .arithmeticInvariant
  else State.complete { s with m := s.decrypted, obuf := s.decrypted, ocnt := 4#3 }

/-- The meaning of DEC (spec R210). -/
def execDec (s : State) : Answer := .next (decState s)

/-- POP (spec R215): an empty buffer is an illegal access, else the read returns the next byte and it leaves. -/
def popState (s : State) : State :=
  if s.ocnt = 0#3 then s.illegalAccess else s.popByte.answerRead s.nextByte

/-- The meaning of POP (spec R215). -/
def execPop (s : State) : Answer := .next (popState s)

end Machine
end Sys2Proof
end

