-- ==== Sys2Proof/Machine/Control.lean ====
section
/-! DEFINITION. The housekeeping commands SRST (spec R230) and FLUSH (R231). -/

namespace Sys2Proof
namespace Machine

/-- The meaning of SRST (spec R230, R48): the reset state, the random source untouched; the CMD write answers OKAY. -/
def execSrst (s : State) : Answer := .next s.resetCore.answerWrite

/-- The meaning of FLUSH (spec R231): both buffers empty; a successful command. -/
def execFlush (s : State) : Answer :=
  .next (State.complete { s with ibuf := 0#32, icnt := 0#3, obuf := 0#32, ocnt := 0#3 })

end Machine
end Sys2Proof
end

