-- ==== Sys2Proof/Machine/Oracle.lean ====
section
/-! DEFINITION. PrimalityOracle: Miller–Rabin (spec R112 to R118) and the MRTEST command (R110, R111). -/

namespace Sys2Proof
namespace Machine

/-- The loop of `Decompose` (spec R112): halve while even, counting. Thirty-two rounds are enough below `2^32`. -/
def decomposeFrom : Nat → Nat → Nat → Nat × Nat
  | 0, u, t => (t, u)
  | k + 1, u, t => if u % 2 = 0 then decomposeFrom k (u / 2) (t + 1) else (t, u)

/-- `Decompose(n)`: the pair `(t, u)` with `n - 1 = 2^t * u`, `u` odd (spec R112). -/
def decompose (n : Nat) : Nat × Nat := decomposeFrom 32 (n - 1) 0

/-- The base of a raw draw: `(raw mod (n - 2)) + 1` (spec R114). -/
def mrBase (n : Nat) (raw : Word) : Nat := raw.toNat % (n - 2) + 1

/-- The squaring loop of a trial (spec R113, R115): at most the given number of squarings; passed at `n - 1`,
composite at 1 or when the budget is exhausted. -/
def mrSquarings (n : Nat) : Nat → Nat → Bool
  | 0, _ => false
  | j + 1, x =>
    if x * x % n = n - 1 then true
    else if x * x % n = 1 then false
    else mrSquarings n j (x * x % n)

/-- One trial with base `a` (spec R113): does it leave `n` possibly prime? -/
def mrTrial (n t u a : Nat) : Bool :=
  if modPow a u n = 1 ∨ modPow a u n = n - 1 then true else mrSquarings n (t - 1) (modPow a u n)

/-- The trials (spec R113, R116): one draw at the start of each trial started, and an early end at the first that
proves `n` composite. -/
def mrTrials (n t u : Nat) : Nat → RngPort → Bool × RngPort
  | 0, pt => (true, pt)
  | k + 1, pt =>
    if mrTrial n t u (mrBase n pt.draw.1) then mrTrials n t u k pt.draw.2 else (false, pt.draw.2)

/-- `MR(n)` (spec R113): true is 1, "probably prime". -/
def mr (n : Nat) (pt : RngPort) : Bool × RngPort :=
  mrTrials n (decompose n).1 (decompose n).2 Config.rTrials pt

/-- MRTEST (spec R110): an input below 3 or even raises ArithmeticInvariantViolation before any draw (R111), else
R takes the verdict and the draws are taken. -/
def mrtestState (s : State) : State :=
  if s.n.toNat < 3 ∨ s.n.toNat % 2 = 0 then s.raiseError .arithmeticInvariant
  else
    State.complete { s with r := flagWord (mr s.n.toNat s.port).1, port := (mr s.n.toNat s.port).2 }

/-- The meaning of MRTEST (spec R110). -/
def execMrtest (s : State) : Answer := .next (mrtestState s)

end Machine
end Sys2Proof
end

