-- ==== Sys2Proof/Machine/Search.lean ====
section
/-! DEFINITION. SafePrimeFinder (spec R150 to R156) and the SPSEARCH command (R152). -/

namespace Sys2Proof
namespace Machine

/-- The candidate of a raw draw (spec R150): bit 30 set, bit 31 cleared. -/
def candidate (raw : Word) : Word := (raw ||| 0x40000000#32) &&& 0x7FFFFFFF#32

/-- What a search returns (spec R151). -/
inductive SearchResult where
  | found (q p attempts : Nat)
  | exhausted (attempts : Nat)
  deriving DecidableEq, Repr

/-- The structural constraint `q mod 12 = 5` (spec R5, R151). -/
def constraintHolds (q : Nat) : Bool := q % 12 = 5

/-- What becomes of one candidate (spec R151, R153): the constraint first, without a draw; then the oracle on `q`;
then the oracle on `2q + 1`. True: the pair is accepted. -/
def tryCandidate (q : Nat) (pt : RngPort) : Bool × RngPort :=
  if constraintHolds q then
    match mr q pt with
    | (false, pt1) => (false, pt1)
    | (true, pt1) => mr (2 * q + 1) pt1
  else (false, pt)

/-- The search loop (spec R151): the first argument is how many candidates may still be sampled, the second how
many have been. The bound is tested before the draw (R154). -/
def searchFrom : Nat → Nat → RngPort → SearchResult × RngPort
  | 0, attempts, pt => (.exhausted attempts, pt)
  | k + 1, attempts, pt =>
    match tryCandidate (candidate pt.draw.1).toNat pt.draw.2 with
    | (true, pt1) =>
      (.found (candidate pt.draw.1).toNat (2 * (candidate pt.draw.1).toNat + 1) (attempts + 1), pt1)
    | (false, pt1) => searchFrom k (attempts + 1) pt1

/-- `SafePrimeFind()` with the bound as an argument (spec R7, R151). -/
def safePrimeFind (maxAttempts : Nat) (pt : RngPort) : SearchResult × RngPort := searchFrom maxAttempts 0 pt

/-- The state after a search has run: its draws taken, ATTEMPTS written in both cases (spec R34, R152, R170). -/
def State.afterSearch (s : State) (attempts : Nat) (pt : RngPort) : State :=
  { s with port := pt, attempts := BitVec.ofNat 32 attempts }

/-- SPSEARCH (spec R152): Q and P on success, PrimeSearchExhausted at the bound. -/
def spsearchState (maxAttempts : Nat) (s : State) : State :=
  match safePrimeFind maxAttempts s.port with
  | (.exhausted attempts, pt) => (s.afterSearch attempts pt).raiseError .primeSearchExhausted
  | (.found q p attempts, pt) =>
    State.complete { s.afterSearch attempts pt with q := BitVec.ofNat 32 q, p := BitVec.ofNat 32 p }

/-- The meaning of SPSEARCH (spec R152). -/
def execSpsearch (s : State) : Answer := .next (spsearchState Config.maxAttempts s)

end Machine
end Sys2Proof
end

