-- ==== Sys2Proof/Machine/KeyGen.lean ====
section
/-! DEFINITION. KeyGenerator: the KEYGEN command (spec R170 to R176) and the RSEED command (R177). -/

namespace Sys2Proof
namespace Machine

/-- The private exponent of a raw draw: `(raw mod p) + 1` (spec R173). -/
def keyExponent (p : Nat) (raw : Word) : Nat := raw.toNat % p + 1

/-- KEYGEN once the search has found `(q, p)` (spec R173 to R176): one draw for `d`; `d = p` raises
ArithmeticInvariantViolation; else the five key registers are written together. -/
def keygenCommit (q p : Nat) (s : State) : State :=
  let s1 := { s with port := s.port.draw.2 }
  let d := keyExponent p s.port.draw.1
  if d = p then s1.raiseError .arithmeticInvariant
  else
    State.complete { s1 with
      q := BitVec.ofNat 32 q, p := BitVec.ofNat 32 p, g := BitVec.ofNat 32 Config.gFixed,
      e := BitVec.ofNat 32 (modPow Config.gFixed d p), d := BitVec.ofNat 32 d }

/-- KEYGEN (spec R170): the seed check first (R171), then the seeding, the search (R172) and the commit. -/
def keygenState (maxAttempts : Nat) (s : State) : State :=
  if Config.seedMax < s.seed.toNat then s.raiseError .invalidSeed
  else
    match safePrimeFind maxAttempts (s.port.rngSeed s.seed) with
    | (.exhausted attempts, pt) => (s.afterSearch attempts pt).raiseError .primeSearchExhausted
    | (.found q p attempts, pt) => keygenCommit q p (s.afterSearch attempts pt)

/-- The meaning of KEYGEN (spec R170). -/
def execKeygen (s : State) : Answer := .next (keygenState Config.maxAttempts s)

/-- The meaning of RSEED (spec R177): `RngSeed(x[SEED])`, no range check. -/
def execRseed (s : State) : Answer := .next (State.complete { s with port := s.port.rngSeed s.seed })

end Machine
end Sys2Proof
end

