-- ==== Sys2Proof/Machine/Dispatch.lean ====
section
/-! DEFINITION. One arm per instruction (spec R92, R96). -/

namespace Sys2Proof
namespace Machine

def exec (i : Instr) (s : State) : Host.Outcome State Fault Refusal :=
  match i with
  | .modpow => Sys2Proof.Machine.execModpow s
  | .mrtest => Sys2Proof.Machine.execMrtest s
  | .spsearch => Sys2Proof.Machine.execSpsearch s
  | .keygen => Sys2Proof.Machine.execKeygen s
  | .enc => Sys2Proof.Machine.execEnc s
  | .dec => Sys2Proof.Machine.execDec s
  | .srst => Sys2Proof.Machine.execSrst s
  | .flush => Sys2Proof.Machine.execFlush s
  | .rseed => Sys2Proof.Machine.execRseed s
  | .push v => Sys2Proof.Machine.execPush v s
  | .pop => Sys2Proof.Machine.execPop s

end Machine
end Sys2Proof
end

