-- ==== Sys2Proof/Machine/Bus.lean ====
section
/-! DEFINITION. One host action served (spec R11): the reset input (R270), a bus transaction (R61 to R64, R91,
R232, R233), or the host's own seeding of the source (R74). -/

namespace Sys2Proof
namespace Machine

/-- An access the decoder refuses: an illegal word written to CMD ends as a command by IllegalRequest with OKAY
(spec R91); every other is an illegal access (spec R64). -/
def refuseAccess (s : State) : DecodeError → State
  | .commandReservedBits => s.raiseError .illegalRequest
  | .commandUnassigned => s.raiseError .illegalRequest
  | .accessSize => s.illegalAccess
  | .accessMisaligned => s.illegalAccess
  | .accessOutsideWindow => s.illegalAccess
  | .accessReserved => s.illegalAccess
  | .accessWriteOnly => s.illegalAccess
  | .accessReadOnly => s.illegalAccess
  | .accessLogReservedBits => s.illegalAccess
  | .accessPushData => s.illegalAccess

/-- A plain read (spec R232): OKAY with the value. -/
def serveRead (loc : Reg) (s : State) : State :=
  match s.readReg loc with
  | some v => s.answerRead v
  | none => s.illegalAccess

/-- A plain write (spec R233, R32): stored, OKAY. -/
def serveWrite (loc : Reg) (v : Word) (s : State) : State :=
  match s.writeReg v loc with
  | some s1 => s1.answerWrite
  | none => s.illegalAccess

/-- A bus transaction (spec R11, R247): decoded, then served. -/
def serveAccess (x : Access) (s : State) : Answer :=
  match decode x with
  | .ok (.instr i) => exec i s
  | .ok (.readReg loc) => .next (serveRead loc s)
  | .ok (.writeReg loc v) => .next (serveWrite loc v s)
  | .error why => .next (refuseAccess s why)

/-- The host's own seeding of the source (spec R35, R74): the stream restarts, DRAWCNT is not cleared. That the seed is one
32-bit word is the model's choice (log 7). -/
def seedOutside (v : Word) (s : State) : State := { s with port := { s.port with rng := s.port.rng.reseed v } }

/-- One host action (spec R10, R11). -/
def serve (x : HostAction) (s : State) : Answer :=
  match x with
  | .reset => .next s.resetCore
  | .access acc => serveAccess acc s
  | .seedSource v => .next (seedOutside v s)

/-- The host's next action taken up (spec R75): the oldest first. Where the host does nothing the core is idle and
keeps all its state (spec R260). -/
def serveNext (s : State) : Answer :=
  match s.host with
  | [] => .next s
  | x :: rest => serve x { s with host := rest }

end Machine
end Sys2Proof
end

