-- ==== Sys2Proof/Machine/Step.lean ====
section
/-! DEFINITION. The step (spec R11): one host action. -/

namespace Sys2Proof
namespace Machine

/-- One step of the machine (spec R11). -/
def step (s : State) : Host.Outcome State Fault Refusal := serveNext s

/-- `s` with the access that selects an opcode-table word as the host's very next action, so that the next step
serves exactly it (log 1, log 8). -/
def State.withFetchWord (s : State) (nbits w : Nat) : State :=
  { s with host := .access (tableAccess nbits w) :: s.host }

end Machine
end Sys2Proof
end

