-- ==== Sys2Proof/Safety.lean ====
section
/-! DEFINITION. What counts as a safe run, and the terms the claims use. A step that stops is unsafe (`isNext`); the
invariant `State.Inv` collects what the spec says holds at every step boundary; `succeeds`, `fails`, `refusesAccess`
and `IsIllegal` write down R31, R245 and R64 once more, field by field and apart from the machine's own operations, so
that a claim is not the machine compared with itself. -/

namespace Sys2Proof
namespace Machine

/-- The step or meaning answers a next state. -/
def isNext : Answer → Bool
  | .next _ => true
  | .fault _ => false
  | .refused _ => false

/-- STATUS (spec R30, R31, R241): before the first command nothing is set; without an error the code is 0; with one
it is 1 to 4. -/
abbrev State.FlagsOk (s : State) : Prop :=
  (s.done = false → s.err = false) ∧ (s.err = false → s.errcode = 0#4)
    ∧ (s.err = true → 1 ≤ s.errcode.toNat ∧ s.errcode.toNat ≤ 4)

/-- FAULTLOG (spec R32): bit 0 and bits 5 to 31 read as 0. -/
abbrev State.LogOk (s : State) : Prop := s.faultlog &&& 0xFFFFFFE1#32 = 0#32

/-- The input buffer (spec R40, R41): at most four bytes, and nothing above them. -/
abbrev State.InputOk (s : State) : Prop := s.icnt.toNat ≤ 4 ∧ s.ibuf.toNat < 2 ^ (8 * s.icnt.toNat)

/-- The output buffer (spec R42, R43): at most four bytes, left-aligned, and nothing below them. -/
abbrev State.OutputOk (s : State) : Prop := s.ocnt.toNat ≤ 4 ∧ s.obuf.toNat % 2 ^ (32 - 8 * s.ocnt.toNat) = 0

/-- M (spec R28): a block is below `2^31`. -/
abbrev State.BlockOk (s : State) : Prop := s.m.toNat < 2 ^ 31

/-- Q (spec R26, R47, R156): the reset value, or a candidate that met the constraint. -/
abbrev State.CandidateOk (s : State) : Prop :=
  s.q = 0#32 ∨ (2 ^ 30 ≤ s.q.toNat ∧ s.q.toNat < 2 ^ 31 ∧ s.q.toNat % 12 = 5)

/-- ATTEMPTS (spec R34): never above the bound. -/
abbrev State.AttemptsOk (s : State) : Prop := s.attempts.toNat ≤ Config.maxAttempts

/-- What holds of the core at every step boundary. -/
abbrev State.Inv (s : State) : Prop :=
  s.FlagsOk ∧ s.LogOk ∧ s.InputOk ∧ s.OutputOk ∧ s.BlockOk ∧ s.CandidateOk ∧ s.AttemptsOk

/-- The end of a successful command, field by field (spec R31, R61). -/
def State.succeeds (s : State) : State :=
  { s with done := true, err := false, errcode := 0#4, resp := some .okayWrite }

/-- The end of a command by the error of a code, field by field (spec R245, R241). -/
def State.fails (s : State) (code : BitVec 4) : State :=
  { s with done := true, err := true, errcode := code, faultlog := s.faultlog ||| (1#32 <<< code.toNat),
           resp := some .okayWrite }

/-- A refused access, field by field (spec R64, R246): SLVERR and bit 4 of the log. -/
def State.refusesAccess (s : State) : State :=
  { s with faultlog := s.faultlog ||| 0x00000010#32, resp := some .slverr }

/-- The accesses spec R64 lists, and only those: (a) ill-formed, (b) a reserved offset, (c) a read of CMD or BIN, (d) a
write of a read-only location, (e) a reserved bit in a FAULTLOG write, (f), (g) a refused PUSH, (h) a POP of nothing. -/
def State.IsIllegal (s : State) : Access → Prop
  | .read size addr =>
    size ≠ 4 ∨ addr % 4 ≠ 0 ∨ 0x100 ≤ addr ∨ 0x54 ≤ addr ∨ addr = 0x00 ∨ addr = 0x44
      ∨ (addr = 0x48 ∧ s.ocnt = 0#3)
  | .write size addr v =>
    size ≠ 4 ∨ addr % 4 ≠ 0 ∨ 0x100 ≤ addr ∨ 0x54 ≤ addr
      ∨ addr ∈ [0x04, 0x0C, 0x20, 0x34, 0x40, 0x48, 0x4C, 0x50]
      ∨ (addr = 0x08 ∧ v &&& 0xFFFFFFE1#32 ≠ 0#32)
      ∨ (addr = 0x44 ∧ (256 ≤ v.toNat ∨ s.icnt = 4#3))

/-- The value the source hands out `k` draws from now (spec R72). -/
def RngPort.ahead (t : RngPort) (k : Nat) : Word := Rng.value { t.rng with pos := t.rng.pos + k }

/-- The port after `k` draws (spec R72, R35): the stream has advanced by `k` and DRAWCNT has counted them modulo
`2^32`. -/
def RngPort.afterDraws (t : RngPort) (k : Nat) : RngPort :=
  { rng := { t.rng with pos := t.rng.pos + k }, drawcnt := t.drawcnt + BitVec.ofNat 32 k }

/-- The naive reference of spec R137: `1 mod n`, then `b` multiplications by `a` modulo `n`. -/
def naivePow (a n : Nat) : Nat → Nat
  | 0 => 1 % n
  | b + 1 => naivePow a n b * a % n

/-- The block of one to four bytes, first byte most significant, missing bytes zero (spec R192): its value before
bit 31 is cleared. -/
def blockValue (bytes : List Byte) : Nat :=
  (bytes.getD 0 0#8).toNat * 2 ^ 24 + (bytes.getD 1 0#8).toNat * 2 ^ 16 + (bytes.getD 2 0#8).toNat * 2 ^ 8
    + (bytes.getD 3 0#8).toNat

/-- The word that pushes a byte (spec R97). -/
def pushWord (x : Byte) : Word := x.setWidth 32

/-- The state after the bytes have been pushed in order (spec R190); stops where a push does. -/
def pushAll (s : State) : List Byte → Answer
  | [] => .next s
  | x :: rest =>
    match exec (.push (pushWord x)) s with
    | .next t => pushAll t rest
    | .fault why => .fault why
    | .refused why => .refused why

/-- The instructions issued by a word written to CMD (spec R13, R92). -/
def isCommand : Instr → Bool
  | .push _ => false
  | .pop => false
  | .modpow => true
  | .mrtest => true
  | .spsearch => true
  | .keygen => true
  | .enc => true
  | .dec => true
  | .srst => true
  | .flush => true
  | .rseed => true

end Machine
end Sys2Proof
end

