-- ==== Sys2Proof/Certificates/Slice0/Obligations.lean ====
section
/-! DEFINITION. The statements for the provers, each from a numbered rule of spec/. A next state is written out field
by field: what is not named is unchanged, so each such equation is the instruction's frame as well. -/

open Sys2Proof Sys2Proof.Machine

/-! ## ModPow -/

/-- R130: MODPOW is the word 1 written to CMD; it puts `A^B mod N` into R and changes nothing else but the flags; with
`N = 0` it ends in ArithmeticInvariantViolation (code 3) and R is unchanged. -/
def Obligations.ModpowPutsPowerIntoR : Prop :=
  decode (.write 4 0x00 0x00000001#32) = .ok (.instr .modpow)
  ∧ (∀ s : State, s.n ≠ 0#32 →
      exec .modpow s
        = .next (State.succeeds { s with r := BitVec.ofNat 32 (s.a.toNat ^ s.b.toNat % s.n.toNat) }))
  ∧ (∀ s : State, s.n = 0#32 → exec .modpow s = .next (s.fails 3#4))

/-- R132: for 32-bit `a`, `b` and `n >= 1`, ModPow is `a^b mod n`, lies in `[0, n)`, and the base need not be reduced. -/
def Obligations.ModPowIsPowerModulo : Prop :=
  ∀ a b n : Nat, a < 2 ^ 32 → b < 2 ^ 32 → 1 ≤ n → n < 2 ^ 32 →
    modPow a b n = a ^ b % n ∧ modPow a b n < n ∧ modPow (a % n) b n = modPow a b n

/-- R133: the running value starts at 1; each of the 32 iterations squares and, where its bit is set, multiplies; after
the iteration for bit `31 - k` it is `a^(b >> (31 - k)) mod n` (the loop invariant, which the spec marks as its own
inference: "derived: by induction"). -/
def Obligations.ModPowScanKeepsLoopInvariant : Prop :=
  ∀ a b n : Nat, a < 2 ^ 32 → b < 2 ^ 32 → 1 ≤ n → n < 2 ^ 32 →
    modPowAcc a b n 0 = 1
    ∧ (∀ k < 32, modPowAcc a b n (k + 1)
        = if b.testBit (31 - k) then modPowAcc a b n k * modPowAcc a b n k % n * a % n
          else modPowAcc a b n k * modPowAcc a b n k % n)
    ∧ (∀ k < 32, modPowAcc a b n (k + 1) = a ^ (b / 2 ^ (31 - k)) % n)
    ∧ modPow a b n = modPowAcc a b n 32

/-- R134: no product reaches `2^64`: not in the scan, at any iteration; not in Miller–Rabin, where a trial squares
`modPow a u n` first and then, each time, the value `x * x mod n` that its last squaring left; not in ENC and not in DEC. -/
def Obligations.ScanProductsFitAccumulator : Prop :=
  (∀ a b n k : Nat, a < 2 ^ 32 → 1 ≤ n → n < 2 ^ 32 →
    modPowAcc a b n k < 2 ^ 32
    ∧ modPowAcc a b n k * modPowAcc a b n k < 2 ^ 64
    ∧ modPowAcc a b n k * modPowAcc a b n k % n * a < 2 ^ 64)
  ∧ (∀ n t u a : Nat, 1 ≤ n → n < 2 ^ 32 →
    mrTrial n t u a
      = (if modPow a u n = 1 ∨ modPow a u n = n - 1 then true else mrSquarings n (t - 1) (modPow a u n))
    ∧ modPow a u n < n ∧ modPow a u n * modPow a u n < 2 ^ 64)
  ∧ (∀ n j x : Nat, 1 ≤ n → n < 2 ^ 32 → x < n →
    mrSquarings n (j + 1) x
      = (if x * x % n = n - 1 then true else if x * x % n = 1 then false else mrSquarings n j (x * x % n))
    ∧ x * x < 2 ^ 64 ∧ x * x % n < n ∧ x * x % n * (x * x % n) < 2 ^ 64)
  ∧ (∀ e k p m : Nat, 1 ≤ p → p < 2 ^ 32 → m < 2 ^ 31 → modPow e k p * m < 2 ^ 63)
  ∧ (∀ c1 x p c2 : Nat, 1 ≤ p → p < 2 ^ 32 → modPow c1 x p * (c2 % p) < 2 ^ 64)

/-- R137: ModPow equals the naive reference (`1 mod n`, then `b` multiplications) for all inputs, and the three values
named there. The spec marks the equality and the third value, 1, as its own inference ("derived"; 93 U9). -/
def Obligations.ModPowEqualsNaiveReference : Prop :=
  (∀ a b n : Nat, a < 2 ^ 32 → b < 2 ^ 32 → 1 ≤ n → n < 2 ^ 32 → modPow a b n = naivePow a n b)
  ∧ modPow 2 10 1000 = 24 ∧ modPow 3 0 7 = 1 ∧ modPow 5 117 19 = 1

/-! ## Miller–Rabin -/

/-- R112: Decompose gives the unique `(t, u)` with `n - 1 = 2^t * u` and `u` odd, and `1 <= t <= 31`, `u >= 1`. -/
def Obligations.DecomposeIsUniquePair : Prop :=
  ∀ n : Nat, 3 ≤ n → n % 2 = 1 → n < 2 ^ 32 →
    n - 1 = 2 ^ (decompose n).1 * (decompose n).2 ∧ (decompose n).2 % 2 = 1
    ∧ 1 ≤ (decompose n).1 ∧ (decompose n).1 ≤ 31 ∧ 1 ≤ (decompose n).2
    ∧ ∀ t u : Nat, n - 1 = 2 ^ t * u → u % 2 = 1 → (t, u) = decompose n

/-- R116, with the trials of R113: MR draws one base per trial started. It answers 1 after exactly ten draws, when all ten
trials pass; it answers 0 after exactly `i` draws (`1 <= i <= 10`), when trial `i` is the first that fails. The spec marks R116 as its
own inference ("derived: from rule R113"). -/
def Obligations.MrDrawsOneBasePerTrialStarted : Prop :=
  ∀ (n : Nat) (pt : RngPort),
    let passes := fun j : Nat => mrTrial n (decompose n).1 (decompose n).2 ((pt.ahead j).toNat % (n - 2) + 1)
    ((∀ j < 10, passes j = true) ∧ mr n pt = (true, pt.afterDraws 10))
    ∨ ∃ i, 1 ≤ i ∧ i ≤ 10 ∧ (∀ j < i - 1, passes j = true) ∧ passes (i - 1) = false
        ∧ mr n pt = (false, pt.afterDraws i)

/-- R115 with R113, declaratively: with `x0 = a^u mod n`, a trial passes exactly when `x0` is 1, or `x0` or one of its
first `t - 1` squarings is `n - 1` (the value 1 cannot be followed by `n - 1`, so leaving at 1 loses nothing). -/
def Obligations.TrialPassesIffStrongProbablePrime : Prop :=
  ∀ n t u a : Nat, 3 ≤ n → n < 2 ^ 32 → u < 2 ^ 32 → a < 2 ^ 32 → 1 ≤ t →
    (mrTrial n t u a = true ↔ a ^ u % n = 1 ∨ ∃ j < t, a ^ (u * 2 ^ j) % n = n - 1)

/-- R117 (b): no base proves a prime composite, so MR answers 1 for a prime whatever is drawn. The spec marks this as general
knowledge that its source does not state. -/
def Obligations.MrAcceptsEveryPrime : Prop :=
  ∀ (n : Nat) (pt : RngPort), Nat.Prime n → 3 ≤ n → n < 2 ^ 32 → (mr n pt).1 = true

/-- R117 (c): with all ten raw draws equal to 0, MR answers 1 for every odd `n >= 3`, prime or not. -/
def Obligations.MrAcceptsOddWhenDrawsAreZero : Prop :=
  ∀ (n : Nat) (pt : RngPort), 3 ≤ n → n % 2 = 1 → n < 2 ^ 32 → (∀ j < 10, pt.ahead j = 0#32) →
    mr n pt = (true, pt.afterDraws 10)

/-- R110: MRTEST is the word 2 written to CMD; with N odd and at least 3 it puts the verdict into R and takes the draws of
MR; otherwise it ends in ArithmeticInvariantViolation with no draw. -/
def Obligations.MrtestPutsVerdictIntoR : Prop :=
  decode (.write 4 0x00 0x00000002#32) = .ok (.instr .mrtest)
  ∧ (∀ s : State, 3 ≤ s.n.toNat → s.n.toNat % 2 = 1 →
      exec .mrtest s
        = .next (State.succeeds { s with r := if (mr s.n.toNat s.port).1 then 1#32 else 0#32,
                                         port := (mr s.n.toNat s.port).2 }))
  ∧ (∀ s : State, s.n.toNat < 3 ∨ s.n.toNat % 2 = 0 → exec .mrtest s = .next (s.fails 3#4))

/-! ## The search -/

/-- R150: bit 31 of a candidate is 0, bit 30 is 1, the others are the raw draw's; so `2^30 <= q < 2^31`. -/
def Obligations.CandidateHasTopBitForced : Prop :=
  ∀ raw : Word,
    candidate raw = (raw ||| 0x40000000#32) &&& 0x7FFFFFFF#32
    ∧ (candidate raw).getLsbD 31 = false ∧ (candidate raw).getLsbD 30 = true
    ∧ (∀ i < 30, (candidate raw).getLsbD i = raw.getLsbD i)
    ∧ 2 ^ 30 ≤ (candidate raw).toNat ∧ (candidate raw).toNat < 2 ^ 31

/-- R151: the loop of SafePrimeFind, one candidate at a time, in the order bound, constraint, oracle on `q`, oracle on
`2q + 1`; a rejected candidate leaves the draws it has taken. -/
def Obligations.SearchTriesOneCandidateAtATime : Prop :=
  ∀ (k attempts maxAttempts : Nat) (pt : RngPort),
    let q := (candidate (pt.ahead 0)).toNat
    let pt1 := pt.afterDraws 1
    safePrimeFind maxAttempts pt = searchFrom maxAttempts 0 pt
    ∧ searchFrom 0 attempts pt = (.exhausted attempts, pt)
    ∧ searchFrom (k + 1) attempts pt =
        if q % 12 ≠ 5 then searchFrom k (attempts + 1) pt1
        else if (mr q pt1).1 = false then searchFrom k (attempts + 1) (mr q pt1).2
        else if (mr (2 * q + 1) (mr q pt1).2).1 = false then
          searchFrom k (attempts + 1) (mr (2 * q + 1) (mr q pt1).2).2
        else (.found q (2 * q + 1) (attempts + 1), (mr (2 * q + 1) (mr q pt1).2).2)

/-- R156: what `Found(q, p, attempts)` guarantees, under any draws and any bound: `2^30 <= q < 2^31`, `q mod 12 = 5`,
`p = 2q + 1` odd with `2^31 + 3 <= p <= 2^32 - 5`, MR passed for `q` and then for `p`, and `1 <= attempts <= MAX_ATTEMPTS`. -/
def Obligations.FoundPairMeetsConstraint : Prop :=
  ∀ (maxAttempts q p attempts : Nat) (pt pt' : RngPort),
    safePrimeFind maxAttempts pt = (.found q p attempts, pt') →
      2 ^ 30 ≤ q ∧ q < 2 ^ 31 ∧ q % 12 = 5 ∧ p = 2 * q + 1 ∧ p % 2 = 1
      ∧ 2 ^ 31 + 3 ≤ p ∧ p ≤ 2 ^ 32 - 5
      ∧ (∃ ptq ptp : RngPort, mr q ptq = (true, ptp) ∧ mr p ptp = (true, pt'))
      ∧ 1 ≤ attempts ∧ attempts ≤ maxAttempts

/-- R156, R117 (c): acceptance is not primality. There are draws (vector F8) under which the very first candidate, a
composite `q` with a composite `2q + 1`, is accepted. -/
def Obligations.CompositePairCanBeAccepted : Prop :=
  ∃ (pt pt' : RngPort) (q p : Nat), ¬ Nat.Prime q ∧ ¬ Nat.Prime p
    ∧ ∀ maxAttempts : Nat, 1 ≤ maxAttempts → safePrimeFind maxAttempts pt = (.found q p 1, pt')

/-- R155: a rejected or accepted candidate costs, after its own draw, 0 draws if the constraint fails, `i` if MR(q) ends in
trial `i`, `10 + i` if MR(q) passes and MR(2q + 1) ends in trial `i`, 20 if it is accepted; and a whole search takes between
`attempts` and `21 * attempts` draws. -/
def Obligations.SearchDrawsBetweenOneAndTwentyOnePerAttempt : Prop :=
  (∀ (q : Nat) (pt : RngPort),
      (q % 12 ≠ 5 ∧ tryCandidate q pt = (false, pt))
      ∨ (q % 12 = 5 ∧ ∃ i, 1 ≤ i ∧ i ≤ 10
          ∧ (((mr q pt).1 = false ∧ tryCandidate q pt = (false, pt.afterDraws i))
            ∨ ((mr q pt).1 = true ∧ tryCandidate q pt = (false, pt.afterDraws (10 + i)))
            ∨ ((mr q pt).1 = true ∧ tryCandidate q pt = (true, pt.afterDraws 20)))))
  ∧ (∀ (maxAttempts : Nat) (pt : RngPort), ∃ draws attempts : Nat,
      (safePrimeFind maxAttempts pt).2 = pt.afterDraws draws
      ∧ attempts ≤ draws ∧ draws ≤ 21 * attempts
      ∧ ((safePrimeFind maxAttempts pt).1 = .exhausted attempts
        ∨ ∃ q p, (safePrimeFind maxAttempts pt).1 = .found q p attempts))

/-- R154: an exhausted search has sampled exactly MAX_ATTEMPTS candidates; and where no candidate drawn meets the
constraint it is exhausted after exactly one draw per attempt. -/
def Obligations.SearchExhaustsAtTheBound : Prop :=
  (∀ (maxAttempts attempts : Nat) (pt pt' : RngPort),
      safePrimeFind maxAttempts pt = (.exhausted attempts, pt') → attempts = maxAttempts)
  ∧ (∀ (maxAttempts : Nat) (pt : RngPort),
      (∀ j < maxAttempts, (candidate (pt.ahead j)).toNat % 12 ≠ 5) →
        safePrimeFind maxAttempts pt = (.exhausted maxAttempts, pt.afterDraws maxAttempts))

/-- R152: SPSEARCH is the word 3 written to CMD. Where the search finds a pair it writes Q, P and ATTEMPTS; where it is
exhausted it has sampled MAX_ATTEMPTS candidates, writes that count into ATTEMPTS and ends in PrimeSearchExhausted (code 2).
The draws stay taken in both cases. -/
def Obligations.SpsearchLeavesPairInQAndP : Prop :=
  decode (.write 4 0x00 0x00000003#32) = .ok (.instr .spsearch)
  ∧ (∀ (s : State) (q p attempts : Nat) (pt : RngPort),
      safePrimeFind Config.maxAttempts s.port = (.found q p attempts, pt) →
        exec .spsearch s
          = .next (State.succeeds { s with q := BitVec.ofNat 32 q, p := BitVec.ofNat 32 p,
                                           attempts := BitVec.ofNat 32 attempts, port := pt }))
  ∧ (∀ (s : State) (attempts : Nat) (pt : RngPort),
      safePrimeFind Config.maxAttempts s.port = (.exhausted attempts, pt) →
        attempts = Config.maxAttempts
        ∧ exec .spsearch s
          = .next (State.fails { s with attempts := BitVec.ofNat 32 Config.maxAttempts, port := pt } 2#4))

/-! ## KEYGEN and RSEED -/

/-- R170: KEYGEN is the word 4 written to CMD. A seed above 10000 ends it at once with InvalidSeed (code 1). Otherwise
the source is seeded and searched; exhaustion ends it with PrimeSearchExhausted (code 2); the draw for `d` that gives `d = p`
ends it with ArithmeticInvariantViolation (code 3); else Q, P, G, E = `2^d mod p` and D are written together. -/
def Obligations.KeygenWritesKeyPair : Prop :=
  decode (.write 4 0x00 0x00000004#32) = .ok (.instr .keygen)
  ∧ (∀ s : State, 10000 < s.seed.toNat → exec .keygen s = .next (s.fails 1#4))
  ∧ (∀ (s : State) (attempts : Nat) (pt : RngPort), s.seed.toNat ≤ 10000 →
      safePrimeFind Config.maxAttempts (s.port.rngSeed s.seed) = (.exhausted attempts, pt) →
        exec .keygen s
          = .next (State.fails { s with attempts := BitVec.ofNat 32 attempts, port := pt } 2#4))
  ∧ (∀ (s : State) (q p attempts d : Nat) (pt : RngPort), s.seed.toNat ≤ 10000 →
      safePrimeFind Config.maxAttempts (s.port.rngSeed s.seed) = (.found q p attempts, pt) →
      d = (pt.ahead 0).toNat % p + 1 → d ≠ p →
        exec .keygen s
          = .next (State.succeeds { s with
              attempts := BitVec.ofNat 32 attempts, port := pt.afterDraws 1
              q := BitVec.ofNat 32 q, p := BitVec.ofNat 32 p, g := 2#32
              e := BitVec.ofNat 32 (2 ^ d % p), d := BitVec.ofNat 32 d }))
  ∧ (∀ (s : State) (q p attempts : Nat) (pt : RngPort), s.seed.toNat ≤ 10000 →
      safePrimeFind Config.maxAttempts (s.port.rngSeed s.seed) = (.found q p attempts, pt) →
      (pt.ahead 0).toNat % p + 1 = p →
        exec .keygen s
          = .next (State.fails { s with attempts := BitVec.ofNat 32 attempts, port := pt.afterDraws 1 } 3#4))

/-- R178: after a KEYGEN that ended without error G = 2, P = 2Q + 1 is odd and above `2^31`, `Q mod 12 = 5`,
`1 <= D < P`, E = `2^D mod P` exactly, and MR passed for Q and then for P, one draw before the end. The spec marks R178 as
its own inference ("derived: from rules R170 to R176"). -/
def Obligations.SuccessfulKeygenGivesConsistentKey : Prop :=
  ∀ s t : State, exec .keygen s = .next t → t.err = false →
    t.g = 2#32 ∧ t.p.toNat = 2 * t.q.toNat + 1 ∧ t.p.toNat % 2 = 1
    ∧ 2 ^ 31 < t.p.toNat ∧ t.q.toNat % 12 = 5
    ∧ 1 ≤ t.d.toNat ∧ t.d.toNat < t.p.toNat
    ∧ t.e.toNat = 2 ^ t.d.toNat % t.p.toNat
    ∧ ∃ ptq ptp pt : RngPort, mr t.q.toNat ptq = (true, ptp) ∧ mr t.p.toNat ptp = (true, pt)
        ∧ t.port = pt.afterDraws 1

/-- R179: two KEYGENs with the same legal seed, on the same random source, end the same way: equal flags, ATTEMPTS and
DRAWCNT, and equal keys when they succeed, whatever the other registers held. -/
def Obligations.KeygenDependsOnSeedAndSourceOnly : Prop :=
  ∀ s1 s2 t1 t2 : State, s1.seed = s2.seed → s1.seed.toNat ≤ 10000 →
    s1.port.rng.streams = s2.port.rng.streams →
    exec .keygen s1 = .next t1 → exec .keygen s2 = .next t2 →
      t1.err = t2.err ∧ t1.errcode = t2.errcode ∧ t1.attempts = t2.attempts ∧ t1.port = t2.port
      ∧ (t1.err = false → t1.q = t2.q ∧ t1.p = t2.p ∧ t1.g = t2.g ∧ t1.e = t2.e ∧ t1.d = t2.d)

/-- R177: RSEED is the word 9 written to CMD; it seeds the source from SEED, clears DRAWCNT, takes no draw, checks no range
and cannot fail. -/
def Obligations.RseedSeedsSourceFromSeed : Prop :=
  decode (.write 4 0x00 0x00000009#32) = .ok (.instr .rseed)
  ∧ ∀ s : State,
      exec .rseed s
        = .next (State.succeeds { s with port := { rng := { s.port.rng with seed := some s.seed, pos := 0 },
                                                   drawcnt := 0#32 } })

/-- R71, R72: after a seeding with `v` the values of the draws are a function of `v` alone for a fixed source, whatever the
source had done before; each draw advances the stream by one and counts in DRAWCNT modulo `2^32`. -/
def Obligations.DrawsAfterSeedingDependOnSeedOnly : Prop :=
  (∀ (t1 t2 : RngPort) (v : Word), t1.rng.streams = t2.rng.streams →
      (t1.rngSeed v).drawcnt = 0#32 ∧ ∀ k : Nat, (t1.rngSeed v).ahead k = (t2.rngSeed v).ahead k)
  ∧ (∀ (t : RngPort) (k : Nat),
      (t.afterDraws k).draw = (t.ahead k, t.afterDraws (k + 1)))

/-! ## The block cipher and its ports -/

/-- R190: PUSH is a write of a byte to BIN. With room and data below 0x100 the byte enters at the right of IBUF and ICNT
grows by one; otherwise the access is illegal. -/
def Obligations.PushAppendsByte : Prop :=
  (∀ v : Word, v.toNat < 256 → decode (.write 4 0x44 v) = .ok (.instr (.push v)))
  ∧ (∀ (s : State) (v : Word), v.toNat < 256 → s.icnt ≠ 4#3 →
      exec (.push v) s
        = .next { s with ibuf := (s.ibuf <<< 8) ||| v, icnt := s.icnt + 1#3, resp := some .okayWrite })
  ∧ (∀ (s : State) (v : Word), 256 ≤ v.toNat ∨ s.icnt = 4#3 → exec (.push v) s = .next s.refusesAccess)

/-- R215: POP is a read of BOUT. With bytes waiting it returns `OBUF[31:24]` with OKAY, shifts OBUF and counts down;
otherwise the access is illegal. -/
def Obligations.PopReturnsNextByte : Prop :=
  decode (.read 4 0x48) = .ok (.instr .pop)
  ∧ (∀ s : State, s.ocnt ≠ 0#3 →
      exec .pop s
        = .next { s with obuf := s.obuf <<< 8, ocnt := s.ocnt - 1#3,
                         resp := some (.okayRead (BitVec.ofNat 32 (s.obuf.toNat / 2 ^ 24))) })
  ∧ (∀ s : State, s.ocnt = 0#3 → exec .pop s = .next s.refusesAccess)

/-- R192: one to four bytes pushed into an empty buffer form the block with the first byte most significant, the missing
bytes zero, and bit 31 cleared. -/
def Obligations.PushedBytesFormBigEndianBlock : Prop :=
  ∀ (s t : State) (bytes : List Byte), s.ibuf = 0#32 → s.icnt = 0#3 → 1 ≤ bytes.length → bytes.length ≤ 4 →
    pushAll s bytes = .next t → t.icnt.toNat = bytes.length ∧ t.block.toNat = blockValue bytes % 2 ^ 31

/-- The bytes of a block do enter: pushing up to four bytes into an empty buffer never stops and is never refused (R190);
the last push answers OKAY, ICNT counts the bytes, and IBUF holds them right-aligned, the earliest most significant (R40). -/
def Obligations.FourBytesFitTheBuffer : Prop :=
  ∀ (s : State) (bytes : List Byte), s.ibuf = 0#32 → s.icnt = 0#3 → bytes.length ≤ 4 →
    ∃ t, pushAll s bytes = .next t
      ∧ t.icnt.toNat = bytes.length
      ∧ t.ibuf.toNat = bytes.foldl (fun acc x => acc * 256 + x.toNat) 0
      ∧ (bytes ≠ [] → t.resp = some .okayWrite)
      ∧ t.faultlog = s.faultlog ∧ t.port = s.port ∧ t.m = s.m ∧ t.obuf = s.obuf ∧ t.ocnt = s.ocnt

/-- R191: ENC is the word 5 written to CMD. Its checks, in order: an empty buffer (code 4), `P = 0` (code 3), `m >= P`
(code 3), all before the draw; else one draw gives `k`, C1 is `G^k mod P`, C2 is `(E^k mod P) * m mod P`, M is the block, and
the input buffer is emptied. -/
def Obligations.EncWritesCiphertextPair : Prop :=
  decode (.write 4 0x00 0x00000005#32) = .ok (.instr .enc)
  ∧ (∀ s : State, s.icnt = 0#3 → exec .enc s = .next (s.fails 4#4))
  ∧ (∀ s : State, s.icnt ≠ 0#3 → s.p = 0#32 → exec .enc s = .next (s.fails 3#4))
  ∧ (∀ s : State, s.icnt ≠ 0#3 → s.p ≠ 0#32 →
      s.p.toNat ≤ s.ibuf.toNat * 2 ^ (8 * (4 - s.icnt.toNat)) % 2 ^ 31 → exec .enc s = .next (s.fails 3#4))
  ∧ (∀ s : State, s.icnt ≠ 0#3 → s.p ≠ 0#32 →
      s.ibuf.toNat * 2 ^ (8 * (4 - s.icnt.toNat)) % 2 ^ 31 < s.p.toNat →
        exec .enc s
          = .next (
            let m := s.ibuf.toNat * 2 ^ (8 * (4 - s.icnt.toNat)) % 2 ^ 31
            let k := (s.port.ahead 0).toNat % s.p.toNat
            State.succeeds { s with
              c1 := BitVec.ofNat 32 (s.g.toNat ^ k % s.p.toNat)
              c2 := BitVec.ofNat 32 (s.e.toNat ^ k % s.p.toNat * m % s.p.toNat)
              m := BitVec.ofNat 32 m
              ibuf := 0#32, icnt := 0#3, port := s.port.afterDraws 1 }))

/-- R210: DEC is the word 6 written to CMD. Its checks, in the order of R212: undelivered bytes (code 4), `P = 0`,
`D >= P`, `C1 >= P` or `C2 >= P` (code 3); else M and OBUF take `(C1^(P-1-D) mod P) * (C2 mod P) mod P` with bit 31
cleared and OCNT is 4. No draw. -/
def Obligations.DecRecoversBlock : Prop :=
  decode (.write 4 0x00 0x00000006#32) = .ok (.instr .dec)
  ∧ (∀ s : State, s.ocnt ≠ 0#3 → exec .dec s = .next (s.fails 4#4))
  ∧ (∀ s : State, s.ocnt = 0#3 →
      s.p = 0#32 ∨ s.p.toNat ≤ s.d.toNat ∨ s.p.toNat ≤ s.c1.toNat ∨ s.p.toNat ≤ s.c2.toNat →
        exec .dec s = .next (s.fails 3#4))
  ∧ (∀ s : State, s.ocnt = 0#3 → s.p ≠ 0#32 → s.d.toNat < s.p.toNat → s.c1.toNat < s.p.toNat →
      s.c2.toNat < s.p.toNat →
        exec .dec s
          = .next (
            let mm := s.c1.toNat ^ (s.p.toNat - 1 - s.d.toNat) % s.p.toNat * (s.c2.toNat % s.p.toNat) % s.p.toNat
            State.succeeds { s with
              m := BitVec.ofNat 32 (mm % 2 ^ 31), obuf := BitVec.ofNat 32 (mm % 2 ^ 31), ocnt := 4#3 }))

/-- R214: after a successful DEC exactly four POPs return bytes, the four bytes of M most significant first, the first
always below 0x80; the buffer is then empty and a fifth POP is refused. -/
def Obligations.DecryptedBytesPopMostSignificantFirst : Prop :=
  ∀ s t : State, exec .dec s = .next t → t.err = false →
    ∃ t1 t2 t3 t4 : State,
      exec .pop t = .next t1 ∧ exec .pop t1 = .next t2 ∧ exec .pop t2 = .next t3 ∧ exec .pop t3 = .next t4
      ∧ t1.resp = some (.okayRead (BitVec.ofNat 32 (t.m.toNat / 2 ^ 24)))
      ∧ t2.resp = some (.okayRead (BitVec.ofNat 32 (t.m.toNat / 2 ^ 16 % 256)))
      ∧ t3.resp = some (.okayRead (BitVec.ofNat 32 (t.m.toNat / 2 ^ 8 % 256)))
      ∧ t4.resp = some (.okayRead (BitVec.ofNat 32 (t.m.toNat % 256)))
      ∧ t.m.toNat / 2 ^ 24 < 0x80 ∧ t4.obuf = 0#32 ∧ t4.ocnt = 0#3
      ∧ exec .pop t4 = .next t4.refusesAccess

/-- R216 (the round trip of one block, as restated by C3 of spec/90): with `p` prime, `g` not a multiple of `p`,
`d < p` and `e = g^d mod p`, a block of one to four bytes that ENC accepts is what the DEC after it recovers, whatever the
draw was. It rests on R211, which the spec marks as general knowledge (Fermat's little theorem), and on R216's exact form,
which it marks as its own inference. -/
def Obligations.DecryptUndoesEncrypt : Prop :=
  ∀ s t u : State,
    Nat.Prime s.p.toNat → s.g.toNat % s.p.toNat ≠ 0 → s.d.toNat < s.p.toNat →
    s.e.toNat = s.g.toNat ^ s.d.toNat % s.p.toNat → s.ocnt = 0#3 →
    exec .enc s = .next t → t.err = false → exec .dec t = .next u →
      u.err = false ∧ t.m = s.block ∧ u.m = t.m ∧ u.obuf = s.block ∧ u.ocnt = 4#3

/-! ## Control, reset, and the bus -/

/-- R230: SRST is the word 7 written to CMD; every storage element is at its reset value, the stream of the random source
stands where it stood, and the write answers OKAY. -/
def Obligations.SrstRestoresResetState : Prop :=
  decode (.write 4 0x00 0x00000007#32) = .ok (.instr .srst)
  ∧ ∀ s : State, ∃ t : State, exec .srst s = .next t
      ∧ t.seed = 0#32 ∧ t.a = 0#32 ∧ t.b = 0#32 ∧ t.n = 0#32 ∧ t.r = 0#32 ∧ t.p = 0#32 ∧ t.g = 0#32
      ∧ t.e = 0#32 ∧ t.d = 0#32 ∧ t.q = 0#32 ∧ t.c1 = 0#32 ∧ t.c2 = 0#32 ∧ t.m = 0#32 ∧ t.attempts = 0#32
      ∧ t.port.drawcnt = 0#32 ∧ t.done = false ∧ t.err = false ∧ t.errcode = 0#4 ∧ statusWord t = 0#32
      ∧ t.faultlog = 0#32 ∧ t.ibuf = 0#32 ∧ t.icnt = 0#3 ∧ t.obuf = 0#32 ∧ t.ocnt = 0#3
      ∧ t.port.rng = s.port.rng ∧ t.resp = some .okayWrite ∧ t.host = s.host

/-- R231: FLUSH is the word 8 written to CMD; both buffers are empty and it succeeds; nothing else changes. -/
def Obligations.FlushEmptiesBuffers : Prop :=
  decode (.write 4 0x00 0x00000008#32) = .ok (.instr .flush)
  ∧ ∀ s : State,
      exec .flush s
        = .next (State.succeeds { s with ibuf := 0#32, icnt := 0#3, obuf := 0#32, ocnt := 0#3 })

/-- R270: the reset input puts every storage element at 0, whatever the state, and leaves the random source alone; the
state the model starts from has the same core state. -/
def Obligations.ResetInputClearsEveryRegister : Prop :=
  (∀ (s : State) (rest : List HostAction), s.host = .reset :: rest → ∃ t : State, step s = .next t
      ∧ t.port.rng = s.port.rng ∧ t.host = rest
      ∧ { t with port := State.reset.port, host := [], resp := none } = State.reset
      ∧ t.port.drawcnt = 0#32)
  ∧ State.reset.seed = 0#32 ∧ State.reset.a = 0#32 ∧ State.reset.b = 0#32 ∧ State.reset.n = 0#32
  ∧ State.reset.r = 0#32 ∧ State.reset.p = 0#32 ∧ State.reset.g = 0#32 ∧ State.reset.e = 0#32
  ∧ State.reset.d = 0#32 ∧ State.reset.q = 0#32 ∧ State.reset.c1 = 0#32 ∧ State.reset.c2 = 0#32
  ∧ State.reset.m = 0#32 ∧ State.reset.attempts = 0#32 ∧ State.reset.port.drawcnt = 0#32
  ∧ statusWord State.reset = 0#32 ∧ State.reset.faultlog = 0#32 ∧ State.reset.ibuf = 0#32
  ∧ State.reset.icnt = 0#3 ∧ State.reset.obuf = 0#32 ∧ State.reset.ocnt = 0#3

/-- R92, R96: the nine command words and the two port accesses, decoded. -/
def Obligations.OpcodeMapDecodes : Prop :=
  decode (.write 4 0x00 0x00000001#32) = .ok (.instr .modpow)
  ∧ decode (.write 4 0x00 0x00000002#32) = .ok (.instr .mrtest)
  ∧ decode (.write 4 0x00 0x00000003#32) = .ok (.instr .spsearch)
  ∧ decode (.write 4 0x00 0x00000004#32) = .ok (.instr .keygen)
  ∧ decode (.write 4 0x00 0x00000005#32) = .ok (.instr .enc)
  ∧ decode (.write 4 0x00 0x00000006#32) = .ok (.instr .dec)
  ∧ decode (.write 4 0x00 0x00000007#32) = .ok (.instr .srst)
  ∧ decode (.write 4 0x00 0x00000008#32) = .ok (.instr .flush)
  ∧ decode (.write 4 0x00 0x00000009#32) = .ok (.instr .rseed)
  ∧ decode (.write 4 0x44 0x000000A5#32) = .ok (.instr (.push 0x000000A5#32))
  ∧ decode (.read 4 0x48) = .ok (.instr .pop)

/-- R91, R94: a word written to CMD is one of the nine, or the command ends at once by IllegalRequest (code 4) with
nothing else changed; and the decoder is total on all words. -/
def Obligations.OtherCommandWordsAreIllegal : Prop :=
  ∀ (s : State) (w : Word) (rest : List HostAction), s.host = .access (.write 4 0x00 w) :: rest →
    step s =
      if w = 0x00000001#32 then exec .modpow { s with host := rest }
      else if w = 0x00000002#32 then exec .mrtest { s with host := rest }
      else if w = 0x00000003#32 then exec .spsearch { s with host := rest }
      else if w = 0x00000004#32 then exec .keygen { s with host := rest }
      else if w = 0x00000005#32 then exec .enc { s with host := rest }
      else if w = 0x00000006#32 then exec .dec { s with host := rest }
      else if w = 0x00000007#32 then exec .srst { s with host := rest }
      else if w = 0x00000008#32 then exec .flush { s with host := rest }
      else if w = 0x00000009#32 then exec .rseed { s with host := rest }
      else .next (State.fails { s with host := rest } 4#4)

/-- Decode and encode agree in both directions: every well-formed instruction, with every operand the encoding admits, is
decoded from the access that encodes it, and no other access is decoded to it. -/
def Obligations.DecodeInvertsEncode : Prop :=
  (∀ i : Instr, i.wellFormed = true → decode (encode i) = .ok (.instr i))
  ∧ (∀ (x : Access) (i : Instr), decode x = .ok (.instr i) → x = encode i ∧ i.wellFormed = true)

/-- The step runs the decoded instruction: where the host's next action is an access that decodes to a well-formed
instruction, the step is `exec` of it on the state with that action taken up. -/
def Obligations.StepRunsDecodedInstruction : Prop :=
  ∀ (s : State) (x : Access) (rest : List HostAction) (i : Instr),
    s.host = .access x :: rest → decode x = .ok (.instr i) → i.wellFormed = true →
      step s = exec i { s with host := rest }

/-- R64: the listed accesses, and only those, answer SLVERR; their whole effect is SLVERR and FAULTLOG[4]. -/
def Obligations.IllegalAccessesAreExactlyTheListed : Prop :=
  ∀ (s : State) (x : Access) (rest : List HostAction), s.host = .access x :: rest →
    (s.IsIllegal x → step s = .next (State.refusesAccess { s with host := rest }))
    ∧ (¬ s.IsIllegal x → ∃ t : State, step s = .next t ∧ t.resp ≠ some .slverr ∧ t.resp ≠ none)

/-- R232: a plain read returns the location's current value with OKAY and changes nothing; STATUS is laid out as R30
says, ID is the constant. -/
def Obligations.PlainReadReturnsCurrentValue : Prop :=
  ∀ (s : State) (off : Nat) (v : Word) (rest : List HostAction), s.host = .access (.read 4 off) :: rest →
    (off, v) ∈
      [(0x04, BitVec.ofNat 32 (s.done.toNat + 2 * s.err.toNat + 16 * s.errcode.toNat + 256 * s.icnt.toNat
          + 4096 * s.ocnt.toNat)),
       (0x08, s.faultlog), (0x0C, 0x504B4331#32), (0x10, s.seed), (0x14, s.a), (0x18, s.b), (0x1C, s.n),
       (0x20, s.r), (0x24, s.p), (0x28, s.g), (0x2C, s.e), (0x30, s.d), (0x34, s.q), (0x38, s.c1), (0x3C, s.c2),
       (0x40, s.m), (0x4C, s.attempts), (0x50, s.port.drawcnt)] →
    step s = .next { s with host := rest, resp := some (.okayRead v) }

/-- R233: a plain write of one of the ten RW locations stores the value, whatever it is, and changes nothing else. -/
def Obligations.PlainWriteStoresValue : Prop :=
  ∀ (s : State) (off : Nat) (v : Word) (t : State) (rest : List HostAction),
    s.host = .access (.write 4 off v) :: rest →
    (off, t) ∈
      [(0x10, { s with seed := v }), (0x14, { s with a := v }), (0x18, { s with b := v }), (0x1C, { s with n := v }),
       (0x24, { s with p := v }), (0x28, { s with g := v }), (0x2C, { s with e := v }), (0x30, { s with d := v }),
       (0x38, { s with c1 := v }), (0x3C, { s with c2 := v })] →
    step s = .next { t with host := rest, resp := some .okayWrite }

/-- R32: the host clears the log by writing ones, bit by bit; with a reserved bit set the write is refused and clears
nothing. -/
def Obligations.FaultlogWriteClearsBits : Prop :=
  ∀ (s : State) (v : Word) (rest : List HostAction), s.host = .access (.write 4 0x08 v) :: rest →
    (v &&& 0xFFFFFFE1#32 = 0#32 → ∃ t : State, step s = .next t
      ∧ t = { s with host := rest, resp := some .okayWrite, faultlog := t.faultlog }
      ∧ ∀ i < 32, t.faultlog.getLsbD i = (s.faultlog.getLsbD i && !v.getLsbD i))
    ∧ (v &&& 0xFFFFFFE1#32 ≠ 0#32 → step s = .next (State.refusesAccess { s with host := rest }))

/-! ## Whole-machine rules -/

/-- R31: every command but SRST ends with DONE set and either no error and code 0, or ERR with a code of 1 to 4 whose
FAULTLOG bit is set; SRST leaves all three 0; every access but a word write of CMD (plain accesses, PUSH, POP, illegal
accesses) leaves them as they were; a command is accepted, and its outcome
but for the flags and the log is the same, whatever the flags were. -/
def Obligations.CommandsWriteTheFlags : Prop :=
  (∀ (i : Instr) (s t : State), exec i s = .next t → isCommand i = true → i ≠ .srst →
      t.done = true
      ∧ ((t.err = false ∧ t.errcode = 0#4)
        ∨ (t.err = true ∧ 1 ≤ t.errcode.toNat ∧ t.errcode.toNat ≤ 4 ∧ t.faultlog.getLsbD t.errcode.toNat = true)))
  ∧ (∀ s t : State, exec .srst s = .next t → t.done = false ∧ t.err = false ∧ t.errcode = 0#4)
  ∧ (∀ (s t : State) (x : Access) (rest : List HostAction), s.host = .access x :: rest →
      (∀ v, x ≠ .write 4 0x00 v) → step s = .next t → t.done = s.done ∧ t.err = s.err ∧ t.errcode = s.errcode)
  ∧ (∀ (i : Instr) (s t t' : State) (x y : Bool) (c : BitVec 4), isCommand i = true → exec i s = .next t →
      exec i { s with done := x, err := y, errcode := c } = .next t' → t = t')

/-- R245: a command that ends in an error has written no result: the result registers, the key and both buffers are as
they were; the operands too; no earlier log bit is lost. -/
def Obligations.FailedCommandWritesNoResult : Prop :=
  ∀ (i : Instr) (s t : State), exec i s = .next t → isCommand i = true → t.err = true →
    t.r = s.r ∧ t.p = s.p ∧ t.g = s.g ∧ t.e = s.e ∧ t.d = s.d ∧ t.q = s.q ∧ t.c1 = s.c1 ∧ t.c2 = s.c2 ∧ t.m = s.m
    ∧ t.ibuf = s.ibuf ∧ t.icnt = s.icnt ∧ t.obuf = s.obuf ∧ t.ocnt = s.ocnt
    ∧ t.seed = s.seed ∧ t.a = s.a ∧ t.b = s.b ∧ t.n = s.n
    ∧ t.faultlog = s.faultlog ||| (1#32 <<< t.errcode.toNat) ∧ t.resp = some .okayWrite

/-- R23, R29: no instruction but SRST writes SEED, A, B or N. -/
def Obligations.OperandRegistersAreNeverWrittenByCommands : Prop :=
  ∀ (i : Instr) (s t : State), exec i s = .next t → i ≠ .srst →
    t.seed = s.seed ∧ t.a = s.a ∧ t.b = s.b ∧ t.n = s.n

/-- R32: no instruction but SRST clears a bit of the log, and none sets a reserved bit. -/
def Obligations.FaultlogIsSticky : Prop :=
  ∀ (i : Instr) (s t : State), exec i s = .next t → i ≠ .srst →
    ∀ j < 32, (s.faultlog.getLsbD j = true → t.faultlog.getLsbD j = true)
      ∧ (t.faultlog.getLsbD j = true → s.faultlog.getLsbD j = true ∨ (1 ≤ j ∧ j ≤ 4))

/-- R49: who writes which register: R only MODPOW and MRTEST; G, E and D only KEYGEN; P and Q only SPSEARCH and KEYGEN;
C1 and C2 only ENC; M only ENC and DEC; the input buffer only ENC, FLUSH and PUSH; the output buffer only DEC, FLUSH and POP;
ATTEMPTS only SPSEARCH and KEYGEN; the random-source port only the commands that draw or seed (SRST apart). -/
def Obligations.AccessMatrixIsKept : Prop :=
  ∀ (i : Instr) (s t : State), exec i s = .next t → i ≠ .srst →
    (i ≠ .modpow → i ≠ .mrtest → t.r = s.r)
    ∧ (i ≠ .keygen → t.g = s.g ∧ t.e = s.e ∧ t.d = s.d)
    ∧ (i ≠ .keygen → i ≠ .spsearch → t.p = s.p ∧ t.q = s.q ∧ t.attempts = s.attempts)
    ∧ (i ≠ .enc → t.c1 = s.c1 ∧ t.c2 = s.c2)
    ∧ (i ≠ .enc → i ≠ .dec → t.m = s.m)
    ∧ (i ≠ .enc → i ≠ .flush → (∀ v, i ≠ .push v) → t.ibuf = s.ibuf ∧ t.icnt = s.icnt)
    ∧ (i ≠ .dec → i ≠ .flush → i ≠ .pop → t.obuf = s.obuf ∧ t.ocnt = s.ocnt)
    ∧ (i ≠ .mrtest → i ≠ .spsearch → i ≠ .keygen → i ≠ .rseed → i ≠ .enc → t.port = s.port)
    ∧ t.host = s.host

/-- R35, R49, R179: how DRAWCNT counts. A command that draws without seeding adds the number of draws it took (at most 10 for
MRTEST, one for an ENC that succeeds and none for one that fails); RSEED leaves 0; a KEYGEN with a legal seed seeds, so that it
counts from 0, and takes the draws of its search, and one more unless the search was exhausted; a KEYGEN with another seed
leaves the port as it was. -/
def Obligations.DrawcntCountsDraws : Prop :=
  (∀ s t : State, exec .mrtest s = .next t → ∃ k, k ≤ 10 ∧ t.port = s.port.afterDraws k
      ∧ (t.err = true → k = 0) ∧ (t.err = false → 1 ≤ k))
  ∧ (∀ s t : State, exec .spsearch s = .next t → ∃ k, t.port = s.port.afterDraws k
      ∧ t.attempts.toNat ≤ k ∧ k ≤ 21 * t.attempts.toNat)
  ∧ (∀ s t : State, exec .enc s = .next t → t.port = s.port.afterDraws (if t.err then 0 else 1))
  ∧ (∀ s t : State, exec .rseed s = .next t → t.port.drawcnt = 0#32)
  ∧ (∀ s t : State, exec .keygen s = .next t → 10000 < s.seed.toNat → t.port = s.port)
  ∧ (∀ s t : State, exec .keygen s = .next t → s.seed.toNat ≤ 10000 →
      ∃ k, (safePrimeFind Config.maxAttempts (s.port.rngSeed s.seed)).2 = (s.port.rngSeed s.seed).afterDraws k
        ∧ t.attempts.toNat ≤ k ∧ k ≤ 21 * t.attempts.toNat
        ∧ t.port = (s.port.rngSeed s.seed).afterDraws (if t.errcode = 2#4 then k else k + 1)
        ∧ t.port.drawcnt = BitVec.ofNat 32 (if t.errcode = 2#4 then k else k + 1)
        ∧ (t.err = false → t.port = (s.port.rngSeed s.seed).afterDraws (k + 1)))

/-- R15, R11: every step answers a next state: no fault and no refusal stops the machine, whatever the state. That the type of
faults is empty is the model's deduction (log 14, DEDUCED) from R15 and the opening of 93. -/
def Obligations.EveryStepAnswersNextState : Prop :=
  (∀ s : State, ∃ t, step s = .next t) ∧ (∀ (i : Instr) (s : State), ∃ t, exec i s = .next t)

/-- The invariant of the core (R26, R28, R30 to R32, R34, R40 to R43) is kept by every step: flags legal, reserved log bits
0, buffer counts at most four with nothing outside the counted bytes, blocks below `2^31`, Q a candidate that met the
constraint, ATTEMPTS within the bound. -/
def Obligations.EveryStepKeepsTheCoreInvariant : Prop :=
  ∀ s t : State, s.Inv → step s = .next t → t.Inv

/-- The core invariant holds at reset. -/
def Obligations.CoreInvariantHoldsAtReset : Prop := State.reset.Inv

/-- The model's own conventions: a step in which the host does nothing changes nothing (log 2, R260), the host's own seeding
of the source restarts the stream without clearing DRAWCNT (log 7, R35, R74), and the reset input gives no response (log 6). -/
def Obligations.IdleAndOutsideSeedingLeaveTheCore : Prop :=
  (∀ s : State, s.host = [] → step s = .next s)
  ∧ (∀ (s : State) (v : Word) (rest : List HostAction), s.host = .seedSource v :: rest →
      step s = .next { s with host := rest,
                              port := { s.port with rng := { s.port.rng with seed := some v, pos := 0 } } })
  ∧ (∀ (s : State) (rest : List HostAction), s.host = .reset :: rest → ∃ t, step s = .next t ∧ t.resp = none)
end

