-- ==== Sys2Proof/Laws/State.lean ====
section
/-! SUPPORT. One lemma per field per update of the state, each true by computation, so that no later proof unfolds a
record update. -/

namespace Sys2Proof
namespace Machine

variable (s : State)

/-! ### complete -/

@[simp] theorem State.complete_seed : s.complete.seed = s.seed := rfl
@[simp] theorem State.complete_a : s.complete.a = s.a := rfl
@[simp] theorem State.complete_b : s.complete.b = s.b := rfl
@[simp] theorem State.complete_n : s.complete.n = s.n := rfl
@[simp] theorem State.complete_r : s.complete.r = s.r := rfl
@[simp] theorem State.complete_p : s.complete.p = s.p := rfl
@[simp] theorem State.complete_g : s.complete.g = s.g := rfl
@[simp] theorem State.complete_e : s.complete.e = s.e := rfl
@[simp] theorem State.complete_d : s.complete.d = s.d := rfl
@[simp] theorem State.complete_q : s.complete.q = s.q := rfl
@[simp] theorem State.complete_c1 : s.complete.c1 = s.c1 := rfl
@[simp] theorem State.complete_c2 : s.complete.c2 = s.c2 := rfl
@[simp] theorem State.complete_m : s.complete.m = s.m := rfl
@[simp] theorem State.complete_attempts : s.complete.attempts = s.attempts := rfl
@[simp] theorem State.complete_done : s.complete.done = true := rfl
@[simp] theorem State.complete_err : s.complete.err = false := rfl
@[simp] theorem State.complete_errcode : s.complete.errcode = 0#4 := rfl
@[simp] theorem State.complete_faultlog : s.complete.faultlog = s.faultlog := rfl
@[simp] theorem State.complete_ibuf : s.complete.ibuf = s.ibuf := rfl
@[simp] theorem State.complete_icnt : s.complete.icnt = s.icnt := rfl
@[simp] theorem State.complete_obuf : s.complete.obuf = s.obuf := rfl
@[simp] theorem State.complete_ocnt : s.complete.ocnt = s.ocnt := rfl
@[simp] theorem State.complete_port : s.complete.port = s.port := rfl
@[simp] theorem State.complete_resp : s.complete.resp = some .okayWrite := rfl
@[simp] theorem State.complete_host : s.complete.host = s.host := rfl

/-! ### raiseError -/

@[simp] theorem State.raiseError_seed (k : ErrKind) : (s.raiseError k).seed = s.seed := rfl
@[simp] theorem State.raiseError_a (k : ErrKind) : (s.raiseError k).a = s.a := rfl
@[simp] theorem State.raiseError_b (k : ErrKind) : (s.raiseError k).b = s.b := rfl
@[simp] theorem State.raiseError_n (k : ErrKind) : (s.raiseError k).n = s.n := rfl
@[simp] theorem State.raiseError_r (k : ErrKind) : (s.raiseError k).r = s.r := rfl
@[simp] theorem State.raiseError_p (k : ErrKind) : (s.raiseError k).p = s.p := rfl
@[simp] theorem State.raiseError_g (k : ErrKind) : (s.raiseError k).g = s.g := rfl
@[simp] theorem State.raiseError_e (k : ErrKind) : (s.raiseError k).e = s.e := rfl
@[simp] theorem State.raiseError_d (k : ErrKind) : (s.raiseError k).d = s.d := rfl
@[simp] theorem State.raiseError_q (k : ErrKind) : (s.raiseError k).q = s.q := rfl
@[simp] theorem State.raiseError_c1 (k : ErrKind) : (s.raiseError k).c1 = s.c1 := rfl
@[simp] theorem State.raiseError_c2 (k : ErrKind) : (s.raiseError k).c2 = s.c2 := rfl
@[simp] theorem State.raiseError_m (k : ErrKind) : (s.raiseError k).m = s.m := rfl
@[simp] theorem State.raiseError_attempts (k : ErrKind) : (s.raiseError k).attempts = s.attempts := rfl
@[simp] theorem State.raiseError_done (k : ErrKind) : (s.raiseError k).done = true := rfl
@[simp] theorem State.raiseError_err (k : ErrKind) : (s.raiseError k).err = true := rfl
@[simp] theorem State.raiseError_errcode (k : ErrKind) : (s.raiseError k).errcode = errCode k := rfl
@[simp] theorem State.raiseError_faultlog (k : ErrKind) : (s.raiseError k).faultlog = logSet s.faultlog k := rfl
@[simp] theorem State.raiseError_ibuf (k : ErrKind) : (s.raiseError k).ibuf = s.ibuf := rfl
@[simp] theorem State.raiseError_icnt (k : ErrKind) : (s.raiseError k).icnt = s.icnt := rfl
@[simp] theorem State.raiseError_obuf (k : ErrKind) : (s.raiseError k).obuf = s.obuf := rfl
@[simp] theorem State.raiseError_ocnt (k : ErrKind) : (s.raiseError k).ocnt = s.ocnt := rfl
@[simp] theorem State.raiseError_port (k : ErrKind) : (s.raiseError k).port = s.port := rfl
@[simp] theorem State.raiseError_resp (k : ErrKind) : (s.raiseError k).resp = some .okayWrite := rfl
@[simp] theorem State.raiseError_host (k : ErrKind) : (s.raiseError k).host = s.host := rfl

/-! ### illegalAccess -/

@[simp] theorem State.illegalAccess_seed : s.illegalAccess.seed = s.seed := rfl
@[simp] theorem State.illegalAccess_a : s.illegalAccess.a = s.a := rfl
@[simp] theorem State.illegalAccess_b : s.illegalAccess.b = s.b := rfl
@[simp] theorem State.illegalAccess_n : s.illegalAccess.n = s.n := rfl
@[simp] theorem State.illegalAccess_r : s.illegalAccess.r = s.r := rfl
@[simp] theorem State.illegalAccess_p : s.illegalAccess.p = s.p := rfl
@[simp] theorem State.illegalAccess_g : s.illegalAccess.g = s.g := rfl
@[simp] theorem State.illegalAccess_e : s.illegalAccess.e = s.e := rfl
@[simp] theorem State.illegalAccess_d : s.illegalAccess.d = s.d := rfl
@[simp] theorem State.illegalAccess_q : s.illegalAccess.q = s.q := rfl
@[simp] theorem State.illegalAccess_c1 : s.illegalAccess.c1 = s.c1 := rfl
@[simp] theorem State.illegalAccess_c2 : s.illegalAccess.c2 = s.c2 := rfl
@[simp] theorem State.illegalAccess_m : s.illegalAccess.m = s.m := rfl
@[simp] theorem State.illegalAccess_attempts : s.illegalAccess.attempts = s.attempts := rfl
@[simp] theorem State.illegalAccess_done : s.illegalAccess.done = s.done := rfl
@[simp] theorem State.illegalAccess_err : s.illegalAccess.err = s.err := rfl
@[simp] theorem State.illegalAccess_errcode : s.illegalAccess.errcode = s.errcode := rfl
@[simp] theorem State.illegalAccess_faultlog : s.illegalAccess.faultlog = logSet s.faultlog .illegalRequest := rfl
@[simp] theorem State.illegalAccess_ibuf : s.illegalAccess.ibuf = s.ibuf := rfl
@[simp] theorem State.illegalAccess_icnt : s.illegalAccess.icnt = s.icnt := rfl
@[simp] theorem State.illegalAccess_obuf : s.illegalAccess.obuf = s.obuf := rfl
@[simp] theorem State.illegalAccess_ocnt : s.illegalAccess.ocnt = s.ocnt := rfl
@[simp] theorem State.illegalAccess_port : s.illegalAccess.port = s.port := rfl
@[simp] theorem State.illegalAccess_resp : s.illegalAccess.resp = some .slverr := rfl
@[simp] theorem State.illegalAccess_host : s.illegalAccess.host = s.host := rfl

/-! ### answerRead -/

@[simp] theorem State.answerRead_seed (v : Word) : (s.answerRead v).seed = s.seed := rfl
@[simp] theorem State.answerRead_a (v : Word) : (s.answerRead v).a = s.a := rfl
@[simp] theorem State.answerRead_b (v : Word) : (s.answerRead v).b = s.b := rfl
@[simp] theorem State.answerRead_n (v : Word) : (s.answerRead v).n = s.n := rfl
@[simp] theorem State.answerRead_r (v : Word) : (s.answerRead v).r = s.r := rfl
@[simp] theorem State.answerRead_p (v : Word) : (s.answerRead v).p = s.p := rfl
@[simp] theorem State.answerRead_g (v : Word) : (s.answerRead v).g = s.g := rfl
@[simp] theorem State.answerRead_e (v : Word) : (s.answerRead v).e = s.e := rfl
@[simp] theorem State.answerRead_d (v : Word) : (s.answerRead v).d = s.d := rfl
@[simp] theorem State.answerRead_q (v : Word) : (s.answerRead v).q = s.q := rfl
@[simp] theorem State.answerRead_c1 (v : Word) : (s.answerRead v).c1 = s.c1 := rfl
@[simp] theorem State.answerRead_c2 (v : Word) : (s.answerRead v).c2 = s.c2 := rfl
@[simp] theorem State.answerRead_m (v : Word) : (s.answerRead v).m = s.m := rfl
@[simp] theorem State.answerRead_attempts (v : Word) : (s.answerRead v).attempts = s.attempts := rfl
@[simp] theorem State.answerRead_done (v : Word) : (s.answerRead v).done = s.done := rfl
@[simp] theorem State.answerRead_err (v : Word) : (s.answerRead v).err = s.err := rfl
@[simp] theorem State.answerRead_errcode (v : Word) : (s.answerRead v).errcode = s.errcode := rfl
@[simp] theorem State.answerRead_faultlog (v : Word) : (s.answerRead v).faultlog = s.faultlog := rfl
@[simp] theorem State.answerRead_ibuf (v : Word) : (s.answerRead v).ibuf = s.ibuf := rfl
@[simp] theorem State.answerRead_icnt (v : Word) : (s.answerRead v).icnt = s.icnt := rfl
@[simp] theorem State.answerRead_obuf (v : Word) : (s.answerRead v).obuf = s.obuf := rfl
@[simp] theorem State.answerRead_ocnt (v : Word) : (s.answerRead v).ocnt = s.ocnt := rfl
@[simp] theorem State.answerRead_port (v : Word) : (s.answerRead v).port = s.port := rfl
@[simp] theorem State.answerRead_resp (v : Word) : (s.answerRead v).resp = some (.okayRead v) := rfl
@[simp] theorem State.answerRead_host (v : Word) : (s.answerRead v).host = s.host := rfl

/-! ### answerWrite -/

@[simp] theorem State.answerWrite_seed : s.answerWrite.seed = s.seed := rfl
@[simp] theorem State.answerWrite_a : s.answerWrite.a = s.a := rfl
@[simp] theorem State.answerWrite_b : s.answerWrite.b = s.b := rfl
@[simp] theorem State.answerWrite_n : s.answerWrite.n = s.n := rfl
@[simp] theorem State.answerWrite_r : s.answerWrite.r = s.r := rfl
@[simp] theorem State.answerWrite_p : s.answerWrite.p = s.p := rfl
@[simp] theorem State.answerWrite_g : s.answerWrite.g = s.g := rfl
@[simp] theorem State.answerWrite_e : s.answerWrite.e = s.e := rfl
@[simp] theorem State.answerWrite_d : s.answerWrite.d = s.d := rfl
@[simp] theorem State.answerWrite_q : s.answerWrite.q = s.q := rfl
@[simp] theorem State.answerWrite_c1 : s.answerWrite.c1 = s.c1 := rfl
@[simp] theorem State.answerWrite_c2 : s.answerWrite.c2 = s.c2 := rfl
@[simp] theorem State.answerWrite_m : s.answerWrite.m = s.m := rfl
@[simp] theorem State.answerWrite_attempts : s.answerWrite.attempts = s.attempts := rfl
@[simp] theorem State.answerWrite_done : s.answerWrite.done = s.done := rfl
@[simp] theorem State.answerWrite_err : s.answerWrite.err = s.err := rfl
@[simp] theorem State.answerWrite_errcode : s.answerWrite.errcode = s.errcode := rfl
@[simp] theorem State.answerWrite_faultlog : s.answerWrite.faultlog = s.faultlog := rfl
@[simp] theorem State.answerWrite_ibuf : s.answerWrite.ibuf = s.ibuf := rfl
@[simp] theorem State.answerWrite_icnt : s.answerWrite.icnt = s.icnt := rfl
@[simp] theorem State.answerWrite_obuf : s.answerWrite.obuf = s.obuf := rfl
@[simp] theorem State.answerWrite_ocnt : s.answerWrite.ocnt = s.ocnt := rfl
@[simp] theorem State.answerWrite_port : s.answerWrite.port = s.port := rfl
@[simp] theorem State.answerWrite_resp : s.answerWrite.resp = some .okayWrite := rfl
@[simp] theorem State.answerWrite_host : s.answerWrite.host = s.host := rfl

/-! ### afterSearch -/

@[simp] theorem State.afterSearch_seed (k : Nat) (t : RngPort) : (s.afterSearch k t).seed = s.seed := rfl
@[simp] theorem State.afterSearch_a (k : Nat) (t : RngPort) : (s.afterSearch k t).a = s.a := rfl
@[simp] theorem State.afterSearch_b (k : Nat) (t : RngPort) : (s.afterSearch k t).b = s.b := rfl
@[simp] theorem State.afterSearch_n (k : Nat) (t : RngPort) : (s.afterSearch k t).n = s.n := rfl
@[simp] theorem State.afterSearch_r (k : Nat) (t : RngPort) : (s.afterSearch k t).r = s.r := rfl
@[simp] theorem State.afterSearch_p (k : Nat) (t : RngPort) : (s.afterSearch k t).p = s.p := rfl
@[simp] theorem State.afterSearch_g (k : Nat) (t : RngPort) : (s.afterSearch k t).g = s.g := rfl
@[simp] theorem State.afterSearch_e (k : Nat) (t : RngPort) : (s.afterSearch k t).e = s.e := rfl
@[simp] theorem State.afterSearch_d (k : Nat) (t : RngPort) : (s.afterSearch k t).d = s.d := rfl
@[simp] theorem State.afterSearch_q (k : Nat) (t : RngPort) : (s.afterSearch k t).q = s.q := rfl
@[simp] theorem State.afterSearch_c1 (k : Nat) (t : RngPort) : (s.afterSearch k t).c1 = s.c1 := rfl
@[simp] theorem State.afterSearch_c2 (k : Nat) (t : RngPort) : (s.afterSearch k t).c2 = s.c2 := rfl
@[simp] theorem State.afterSearch_m (k : Nat) (t : RngPort) : (s.afterSearch k t).m = s.m := rfl
@[simp] theorem State.afterSearch_attempts (k : Nat) (t : RngPort) : (s.afterSearch k t).attempts = BitVec.ofNat 32 k := rfl
@[simp] theorem State.afterSearch_done (k : Nat) (t : RngPort) : (s.afterSearch k t).done = s.done := rfl
@[simp] theorem State.afterSearch_err (k : Nat) (t : RngPort) : (s.afterSearch k t).err = s.err := rfl
@[simp] theorem State.afterSearch_errcode (k : Nat) (t : RngPort) : (s.afterSearch k t).errcode = s.errcode := rfl
@[simp] theorem State.afterSearch_faultlog (k : Nat) (t : RngPort) : (s.afterSearch k t).faultlog = s.faultlog := rfl
@[simp] theorem State.afterSearch_ibuf (k : Nat) (t : RngPort) : (s.afterSearch k t).ibuf = s.ibuf := rfl
@[simp] theorem State.afterSearch_icnt (k : Nat) (t : RngPort) : (s.afterSearch k t).icnt = s.icnt := rfl
@[simp] theorem State.afterSearch_obuf (k : Nat) (t : RngPort) : (s.afterSearch k t).obuf = s.obuf := rfl
@[simp] theorem State.afterSearch_ocnt (k : Nat) (t : RngPort) : (s.afterSearch k t).ocnt = s.ocnt := rfl
@[simp] theorem State.afterSearch_port (k : Nat) (t : RngPort) : (s.afterSearch k t).port = t := rfl
@[simp] theorem State.afterSearch_resp (k : Nat) (t : RngPort) : (s.afterSearch k t).resp = s.resp := rfl
@[simp] theorem State.afterSearch_host (k : Nat) (t : RngPort) : (s.afterSearch k t).host = s.host := rfl

/-! ### pushByte -/

@[simp] theorem State.pushByte_seed (x : Byte) : (s.pushByte x).seed = s.seed := rfl
@[simp] theorem State.pushByte_a (x : Byte) : (s.pushByte x).a = s.a := rfl
@[simp] theorem State.pushByte_b (x : Byte) : (s.pushByte x).b = s.b := rfl
@[simp] theorem State.pushByte_n (x : Byte) : (s.pushByte x).n = s.n := rfl
@[simp] theorem State.pushByte_r (x : Byte) : (s.pushByte x).r = s.r := rfl
@[simp] theorem State.pushByte_p (x : Byte) : (s.pushByte x).p = s.p := rfl
@[simp] theorem State.pushByte_g (x : Byte) : (s.pushByte x).g = s.g := rfl
@[simp] theorem State.pushByte_e (x : Byte) : (s.pushByte x).e = s.e := rfl
@[simp] theorem State.pushByte_d (x : Byte) : (s.pushByte x).d = s.d := rfl
@[simp] theorem State.pushByte_q (x : Byte) : (s.pushByte x).q = s.q := rfl
@[simp] theorem State.pushByte_c1 (x : Byte) : (s.pushByte x).c1 = s.c1 := rfl
@[simp] theorem State.pushByte_c2 (x : Byte) : (s.pushByte x).c2 = s.c2 := rfl
@[simp] theorem State.pushByte_m (x : Byte) : (s.pushByte x).m = s.m := rfl
@[simp] theorem State.pushByte_attempts (x : Byte) : (s.pushByte x).attempts = s.attempts := rfl
@[simp] theorem State.pushByte_done (x : Byte) : (s.pushByte x).done = s.done := rfl
@[simp] theorem State.pushByte_err (x : Byte) : (s.pushByte x).err = s.err := rfl
@[simp] theorem State.pushByte_errcode (x : Byte) : (s.pushByte x).errcode = s.errcode := rfl
@[simp] theorem State.pushByte_faultlog (x : Byte) : (s.pushByte x).faultlog = s.faultlog := rfl
@[simp] theorem State.pushByte_ibuf (x : Byte) : (s.pushByte x).ibuf = (s.ibuf <<< 8) ||| x.setWidth 32 := rfl
@[simp] theorem State.pushByte_icnt (x : Byte) : (s.pushByte x).icnt = s.icnt + 1#3 := rfl
@[simp] theorem State.pushByte_obuf (x : Byte) : (s.pushByte x).obuf = s.obuf := rfl
@[simp] theorem State.pushByte_ocnt (x : Byte) : (s.pushByte x).ocnt = s.ocnt := rfl
@[simp] theorem State.pushByte_port (x : Byte) : (s.pushByte x).port = s.port := rfl
@[simp] theorem State.pushByte_resp (x : Byte) : (s.pushByte x).resp = s.resp := rfl
@[simp] theorem State.pushByte_host (x : Byte) : (s.pushByte x).host = s.host := rfl

/-! ### popByte -/

@[simp] theorem State.popByte_seed : s.popByte.seed = s.seed := rfl
@[simp] theorem State.popByte_a : s.popByte.a = s.a := rfl
@[simp] theorem State.popByte_b : s.popByte.b = s.b := rfl
@[simp] theorem State.popByte_n : s.popByte.n = s.n := rfl
@[simp] theorem State.popByte_r : s.popByte.r = s.r := rfl
@[simp] theorem State.popByte_p : s.popByte.p = s.p := rfl
@[simp] theorem State.popByte_g : s.popByte.g = s.g := rfl
@[simp] theorem State.popByte_e : s.popByte.e = s.e := rfl
@[simp] theorem State.popByte_d : s.popByte.d = s.d := rfl
@[simp] theorem State.popByte_q : s.popByte.q = s.q := rfl
@[simp] theorem State.popByte_c1 : s.popByte.c1 = s.c1 := rfl
@[simp] theorem State.popByte_c2 : s.popByte.c2 = s.c2 := rfl
@[simp] theorem State.popByte_m : s.popByte.m = s.m := rfl
@[simp] theorem State.popByte_attempts : s.popByte.attempts = s.attempts := rfl
@[simp] theorem State.popByte_done : s.popByte.done = s.done := rfl
@[simp] theorem State.popByte_err : s.popByte.err = s.err := rfl
@[simp] theorem State.popByte_errcode : s.popByte.errcode = s.errcode := rfl
@[simp] theorem State.popByte_faultlog : s.popByte.faultlog = s.faultlog := rfl
@[simp] theorem State.popByte_ibuf : s.popByte.ibuf = s.ibuf := rfl
@[simp] theorem State.popByte_icnt : s.popByte.icnt = s.icnt := rfl
@[simp] theorem State.popByte_obuf : s.popByte.obuf = s.obuf <<< 8 := rfl
@[simp] theorem State.popByte_ocnt : s.popByte.ocnt = s.ocnt - 1#3 := rfl
@[simp] theorem State.popByte_port : s.popByte.port = s.port := rfl
@[simp] theorem State.popByte_resp : s.popByte.resp = s.resp := rfl
@[simp] theorem State.popByte_host : s.popByte.host = s.host := rfl

/-! ### resetCore -/

@[simp] theorem State.resetCore_seed : s.resetCore.seed = 0#32 := rfl
@[simp] theorem State.resetCore_a : s.resetCore.a = 0#32 := rfl
@[simp] theorem State.resetCore_b : s.resetCore.b = 0#32 := rfl
@[simp] theorem State.resetCore_n : s.resetCore.n = 0#32 := rfl
@[simp] theorem State.resetCore_r : s.resetCore.r = 0#32 := rfl
@[simp] theorem State.resetCore_p : s.resetCore.p = 0#32 := rfl
@[simp] theorem State.resetCore_g : s.resetCore.g = 0#32 := rfl
@[simp] theorem State.resetCore_e : s.resetCore.e = 0#32 := rfl
@[simp] theorem State.resetCore_d : s.resetCore.d = 0#32 := rfl
@[simp] theorem State.resetCore_q : s.resetCore.q = 0#32 := rfl
@[simp] theorem State.resetCore_c1 : s.resetCore.c1 = 0#32 := rfl
@[simp] theorem State.resetCore_c2 : s.resetCore.c2 = 0#32 := rfl
@[simp] theorem State.resetCore_m : s.resetCore.m = 0#32 := rfl
@[simp] theorem State.resetCore_attempts : s.resetCore.attempts = 0#32 := rfl
@[simp] theorem State.resetCore_done : s.resetCore.done = false := rfl
@[simp] theorem State.resetCore_err : s.resetCore.err = false := rfl
@[simp] theorem State.resetCore_errcode : s.resetCore.errcode = 0#4 := rfl
@[simp] theorem State.resetCore_faultlog : s.resetCore.faultlog = 0#32 := rfl
@[simp] theorem State.resetCore_ibuf : s.resetCore.ibuf = 0#32 := rfl
@[simp] theorem State.resetCore_icnt : s.resetCore.icnt = 0#3 := rfl
@[simp] theorem State.resetCore_obuf : s.resetCore.obuf = 0#32 := rfl
@[simp] theorem State.resetCore_ocnt : s.resetCore.ocnt = 0#3 := rfl
@[simp] theorem State.resetCore_port : s.resetCore.port = { rng := s.port.rng, drawcnt := 0#32 } := rfl
@[simp] theorem State.resetCore_resp : s.resetCore.resp = none := rfl
@[simp] theorem State.resetCore_host : s.resetCore.host = s.host := rfl

/-! ### The random-source port -/

@[simp] theorem RngPort.rngSeed_drawcnt (t : RngPort) (v : Word) : (t.rngSeed v).drawcnt = 0#32 := rfl
@[simp] theorem RngPort.rngSeed_seed (t : RngPort) (v : Word) : (t.rngSeed v).rng.seed = some v := rfl
@[simp] theorem RngPort.rngSeed_pos (t : RngPort) (v : Word) : (t.rngSeed v).rng.pos = 0 := rfl
@[simp] theorem RngPort.rngSeed_streams (t : RngPort) (v : Word) :
    (t.rngSeed v).rng.streams = t.rng.streams := rfl
@[simp] theorem RngPort.draw_value (t : RngPort) : t.draw.1 = t.ahead 0 := rfl
@[simp] theorem RngPort.draw_port (t : RngPort) : t.draw.2 = t.afterDraws 1 := rfl
@[simp] theorem RngPort.afterDraws_zero (t : RngPort) : t.afterDraws 0 = t := by
  simp [RngPort.afterDraws]

/-- Draws add up: `j` draws and then `k` are `j + k` draws. -/
@[simp] theorem RngPort.afterDraws_afterDraws (t : RngPort) (j k : Nat) :
    (t.afterDraws j).afterDraws k = t.afterDraws (j + k) := by
  simp [RngPort.afterDraws, Nat.add_assoc, BitVec.add_assoc, BitVec.ofNat_add]

/-- The value `k` draws after `j` draws is the value `j + k` draws from now. -/
@[simp] theorem RngPort.ahead_afterDraws (t : RngPort) (j k : Nat) :
    (t.afterDraws j).ahead k = t.ahead (j + k) := by
  simp [RngPort.afterDraws, RngPort.ahead, Nat.add_assoc]

@[simp] theorem RngPort.afterDraws_seed (t : RngPort) (k : Nat) : (t.afterDraws k).rng.seed = t.rng.seed := rfl
@[simp] theorem RngPort.afterDraws_streams (t : RngPort) (k : Nat) :
    (t.afterDraws k).rng.streams = t.rng.streams := rfl
@[simp] theorem RngPort.afterDraws_pos (t : RngPort) (k : Nat) : (t.afterDraws k).rng.pos = t.rng.pos + k := rfl
@[simp] theorem RngPort.afterDraws_drawcnt (t : RngPort) (k : Nat) :
    (t.afterDraws k).drawcnt = t.drawcnt + BitVec.ofNat 32 k := rfl

end Machine
end Sys2Proof
end

