-- ==== Sys2Proof/Laws/Ops.lean ====
section
/-! SUPPORT. One lemma per shared operation, saying once what it can do: the ends of a command, the log, the buffers,
the meanings as next states, the cases of a served action. -/

namespace Sys2Proof
namespace Machine

/-! ### The ends of a command and the log (R31, R245, R64) -/

/-- The machine's successful end is R31, field by field. -/
theorem State.complete_eq_succeeds (s : State) : s.complete = s.succeeds := rfl

/-- The machine's error completion is R245, field by field. -/
theorem State.raiseError_eq_fails (s : State) (k : ErrKind) : s.raiseError k = s.fails (errCode k) := rfl

/-- The machine's illegal access is R64, field by field. -/
theorem State.illegalAccess_eq_refusesAccess (s : State) : s.illegalAccess = s.refusesAccess := rfl

/-- An error code is 1 to 4 (R241). -/
theorem errCode_range (k : ErrKind) : 1 ≤ (errCode k).toNat ∧ (errCode k).toNat ≤ 4 := by
  cases k <;> decide

/-- The log bit of an error is a legal one (R32). -/
theorem logBit_legal (k : ErrKind) : logBit k &&& 0xFFFFFFE1#32 = 0#32 := by
  cases k <;> decide

/-- Setting a log bit sets no reserved bit (R32). -/
theorem logSet_legal (log : Word) (k : ErrKind) (h : log &&& 0xFFFFFFE1#32 = 0#32) :
    logSet log k &&& 0xFFFFFFE1#32 = 0#32 := by
  rw [logSet, BitVec.and_comm, BitVec.and_or_distrib_left, BitVec.and_comm, h, BitVec.and_comm, logBit_legal]
  rfl

/-- Clearing log bits sets no reserved bit (R32). -/
theorem logClear_legal (log v : Word) (h : log &&& 0xFFFFFFE1#32 = 0#32) :
    logClear log v &&& 0xFFFFFFE1#32 = 0#32 := by
  rw [logClear, BitVec.and_assoc, BitVec.and_comm (~~~v), ← BitVec.and_assoc, h, BitVec.zero_and]

/-! ### Arithmetic of the operand forms -/

/-- Clearing bit 31 is the remainder modulo `2^31` (R192, R213). -/
theorem clearTop_toNat (v : Word) : (clearTop v).toNat = v.toNat % 2 ^ 31 := by
  have h : (0x7FFFFFFF#32).toNat = 2 ^ 31 - 1 := rfl
  rw [clearTop, BitVec.toNat_and, h, Nat.and_two_pow_sub_one_eq_mod]

/-- The block in the input buffer, as a number (R191, R192). -/
theorem State.block_toNat (s : State) :
    s.block.toNat = s.ibuf.toNat * 2 ^ (8 * (4 - s.icnt.toNat)) % 2 ^ 31 := by
  rw [State.block, clearTop_toNat, BitVec.toNat_shiftLeft, Nat.shiftLeft_eq]
  exact Nat.mod_mod_of_dvd _ (by norm_num)

/-- A word above 0xFF is one with a bit of `[31:8]` set (R190). -/
theorem shiftRight_eight_eq_zero (v : Word) : v >>> 8 = 0#32 ↔ v.toNat < 256 := by
  constructor
  · intro h
    have := congrArg BitVec.toNat h
    simp [Nat.shiftRight_eq_div_pow] at this
    omega
  · intro h
    apply BitVec.eq_of_toNat_eq
    simp [Nat.shiftRight_eq_div_pow]
    omega

/-- A byte pushed into a buffer of at most three bytes: nothing is shifted out (R190). -/
theorem pushByte_ibuf_toNat (s : State) (x : Byte) (h : s.ibuf.toNat < 2 ^ 24) :
    (s.pushByte x).ibuf.toNat = s.ibuf.toNat * 256 + x.toNat := by
  have hx := x.isLt
  have e1 : (s.ibuf <<< 8).toNat = 2 ^ 8 * s.ibuf.toNat := by
    rw [BitVec.toNat_shiftLeft, Nat.shiftLeft_eq]
    omega
  have e2 : (x.setWidth 32).toNat = x.toNat := by
    simp
    omega
  show ((s.ibuf <<< 8) ||| x.setWidth 32).toNat = _
  rw [BitVec.toNat_or, e1, e2, ← Nat.two_pow_add_eq_or_of_lt hx]
  omega

/-- A byte pushed into a buffer that is not full counts one more (R190). -/
theorem pushByte_icnt_toNat (s : State) (x : Byte) (h : s.icnt.toNat < 4) :
    (s.pushByte x).icnt.toNat = s.icnt.toNat + 1 := by
  show (s.icnt + 1#3).toNat = _
  rw [BitVec.toNat_add]
  simp
  omega

/-- One iteration of the scan stays below the modulus (R133). -/
theorem modPowStep_lt (a n : Nat) (bit : Bool) (acc : Nat) (hn : 0 < n) : modPowStep a n bit acc < n := by
  unfold modPowStep
  split <;> exact Nat.mod_lt _ hn

/-- The search with MAX_ATTEMPTS ends at once where the first candidate is accepted (R7: the bound is at least 1). -/
theorem safePrimeFind_first (pt pt1 : RngPort)
    (h : tryCandidate (candidate pt.draw.1).toNat pt.draw.2 = (true, pt1)) :
    safePrimeFind Config.maxAttempts pt
      = (.found (candidate pt.draw.1).toNat (2 * (candidate pt.draw.1).toNat + 1) 1, pt1) := by
  simp only [safePrimeFind, Config.maxAttempts, searchFrom, h]

/-! ### What a step can do -/

/-- Every meaning answers a next state. -/
theorem exec_next (i : Instr) (s : State) : ∃ t, exec i s = .next t := by
  cases i <;> exact ⟨_, rfl⟩

/-- A refused access is an error completion with code 4 or an illegal access, nothing else (R91, R64). -/
theorem refuseAccess_cases (s : State) (why : DecodeError) :
    refuseAccess s why = s.raiseError .illegalRequest ∨ refuseAccess s why = s.illegalAccess := by
  cases why <;> first | exact .inl rfl | exact .inr rfl

/-- A plain read changes the response only, or is refused (R232). -/
theorem serveRead_cases (loc : Reg) (s : State) :
    (∃ v, s.readReg loc = some v ∧ serveRead loc s = s.answerRead v)
      ∨ (s.readReg loc = none ∧ serveRead loc s = s.illegalAccess) := by
  cases h : s.readReg loc with
  | some v => exact .inl ⟨v, rfl, by simp [serveRead, h]⟩
  | none => exact .inr ⟨rfl, by simp [serveRead, h]⟩

/-- A plain write stores and answers OKAY, or is refused (R233). -/
theorem serveWrite_cases (loc : Reg) (v : Word) (s : State) :
    (∃ t, s.writeReg v loc = some t ∧ serveWrite loc v s = t.answerWrite)
      ∨ (s.writeReg v loc = none ∧ serveWrite loc v s = s.illegalAccess) := by
  cases h : s.writeReg v loc with
  | some t => exact .inl ⟨t, rfl, by simp [serveWrite, h]⟩
  | none => exact .inr ⟨rfl, by simp [serveWrite, h]⟩

/-- What a step can do: idle, reset, the host's own seeding, an instruction, a plain read, a plain write, or a refused
access. -/
theorem step_cases (s t : State) (h : step s = .next t) :
    (s.host = [] ∧ t = s)
    ∨ ∃ rest, s.host = .reset :: rest ∧ t = State.resetCore { s with host := rest }
    ∨ (∃ v, s.host = .seedSource v :: rest ∧ t = seedOutside v { s with host := rest })
    ∨ ∃ x, s.host = .access x :: rest
        ∧ ((∃ i, decode x = .ok (.instr i) ∧ exec i { s with host := rest } = .next t)
          ∨ (∃ loc, decode x = .ok (.readReg loc) ∧ t = serveRead loc { s with host := rest })
          ∨ (∃ loc v, decode x = .ok (.writeReg loc v) ∧ t = serveWrite loc v { s with host := rest })
          ∨ (∃ why, decode x = .error why ∧ t = refuseAccess { s with host := rest } why)) := by
  unfold step serveNext at h
  split at h
  · case h_1 he => exact .inl ⟨he, by cases h; rfl⟩
  · case h_2 x rest he =>
    refine .inr ⟨rest, ?_⟩
    cases x with
    | reset => exact .inl ⟨he, by cases h; rfl⟩
    | seedSource v => exact .inr (.inl ⟨v, he, by cases h; rfl⟩)
    | access acc =>
      refine .inr (.inr ⟨acc, he, ?_⟩)
      simp only [serve, serveAccess] at h
      split at h
      · case h_1 i hd => exact .inl ⟨i, hd, h⟩
      · case h_2 loc hd => exact .inr (.inl ⟨loc, hd, by cases h; rfl⟩)
      · case h_3 loc v hd => exact .inr (.inr (.inl ⟨loc, v, hd, by cases h; rfl⟩))
      · case h_4 why hd => exact .inr (.inr (.inr ⟨why, hd, by cases h; rfl⟩))

end Machine
end Sys2Proof
end

