-- ==== Sys2Proof/Laws/Decode.lean ====
section
/-! SUPPORT. What the decoder answers, said once: the command words (R91, R92), the address map (R21), the two ports
(R96), and the write of FAULTLOG (R32). -/

namespace Sys2Proof
namespace Machine

/-- Decode of a CMD word as a chain of comparisons with the nine words of the opcode map (R91, R92). -/
theorem decodeCommand_eq (w : Word) :
    decodeCommand w =
      if w = 1#32 then .ok (.instr .modpow)
      else if w = 2#32 then .ok (.instr .mrtest)
      else if w = 3#32 then .ok (.instr .spsearch)
      else if w = 4#32 then .ok (.instr .keygen)
      else if w = 5#32 then .ok (.instr .enc)
      else if w = 6#32 then .ok (.instr .dec)
      else if w = 7#32 then .ok (.instr .srst)
      else if w = 8#32 then .ok (.instr .flush)
      else if w = 9#32 then .ok (.instr .rseed)
      else if w >>> 8 ≠ 0#32 then .error .commandReservedBits else .error .commandUnassigned := by
  by_cases h : w >>> 8 = 0#32
  · have hl := (shiftRight_eight_eq_zero w).mp h
    obtain ⟨n, hn, rfl⟩ : ∃ n, n < 256 ∧ w = BitVec.ofNat 32 n := ⟨w.toNat, hl, by simp⟩
    clear hl h
    revert n
    decide +kernel
  · have h1 : ∀ n : Nat, n < 256 → w ≠ BitVec.ofNat 32 n := by
      intro n hn hc
      apply h
      rw [shiftRight_eight_eq_zero, hc]
      simp
      omega
    simp only [decodeCommand, ne_eq, h, not_false_iff, if_true]
    simp [h1]

/-- A CMD word is a command or one of the two command errors (R91). -/
theorem decodeCommand_cases (w : Word) :
    (∃ i, isCommand i = true ∧ decodeCommand w = .ok (.instr i))
      ∨ decodeCommand w = .error .commandReservedBits ∨ decodeCommand w = .error .commandUnassigned := by
  unfold decodeCommand
  split
  · exact .inr (.inl rfl)
  · split
    · case h_1 i hi =>
      refine .inl ⟨i, ?_, rfl⟩
      have : ∀ n < 256, ∀ j, opcodeMap.lookup n = some j → isCommand j = true := by
        intro n hn
        have h : ∀ m < 256, (match opcodeMap.lookup m with | some j => isCommand j | none => true) = true := by
          decide +kernel
        intro j hj
        simpa [hj] using h n hn
      exact this _ (Nat.mod_lt _ (by decide)) i hi
    · exact .inr (.inr rfl)

/-- A location stands at its own offset (R21). -/
theorem atOffset_offset (loc : Reg) : Reg.atOffset loc.offset = some loc := by
  cases loc <;> rfl

/-- An offset that has a location is that location's (R21). -/
theorem offset_of_atOffset (addr : Nat) (loc : Reg) (h : Reg.atOffset addr = some loc) :
    addr = loc.offset := by
  have hb : addr < 256 := by
    by_contra hc
    simp [Reg.atOffset, registerMap, List.lookup] at h
    repeat' split at h
    all_goals simp_all
  have : ∀ k < 256, ∀ l, Reg.atOffset k = some l → k = l.offset := by
    have h1 : ∀ k < 256, (match Reg.atOffset k with | some l => decide (k = l.offset) | none => true) = true := by
      decide +kernel
    intro k hk l hl
    simpa [hl] using h1 k hk
  exact this addr hb loc h

/-- A write of CMD is decoded as a command word (R91). -/
theorem decode_write_cmd (w : Word) : decode (.write 4 0x00 w) = decodeCommand w := rfl

/-- A write of BIN is a PUSH of a byte, or refused (R64 (f), R190). -/
theorem decode_write_bin (v : Word) :
    decode (.write 4 0x44 v) = if v >>> 8 = 0#32 then .ok (.instr (.push v)) else .error .accessPushData := rfl

/-- A write of FAULTLOG stands or falls with its reserved bits (R32, R64 (e)). -/
theorem decode_write_faultlog (v : Word) :
    decode (.write 4 0x08 v)
      = if v &&& 0xFFFFFFE1#32 = 0#32 then .ok (.writeReg .faultlog v) else .error .accessLogReservedBits := rfl

/-- The step serves the host's next access (R11). -/
theorem step_access (s : State) (x : Access) (rest : List HostAction) (h : s.host = .access x :: rest) :
    step s = serveAccess x { s with host := rest } := by
  simp [step, serveNext, h, serve]

end Machine
end Sys2Proof
end

