-- ==== Sys2Proof/Laws/Exec.lean ====
section
/-! SUPPORT. One lemma per meaning, saying once everything it can do (the outcomes of the instruction with the
conditions of each), and the unfolding equations of the trial and search loops. A proof about an instruction takes these
apart and does not unfold the meaning. -/

namespace Sys2Proof
namespace Machine

/-! ### The loops (R113, R151) -/

/-- One trial and the trials after it (R113, R116). -/
theorem mrTrials_succ (n t u k : Nat) (pt : RngPort) :
    mrTrials n t u (k + 1) pt
      = if mrTrial n t u (mrBase n pt.draw.1) = true then mrTrials n t u k pt.draw.2 else (false, pt.draw.2) := rfl

/-- One candidate and the candidates after it (R151). -/
theorem searchFrom_succ (k attempts : Nat) (pt : RngPort) :
    searchFrom (k + 1) attempts pt
      = if (tryCandidate (candidate pt.draw.1).toNat pt.draw.2).1 = true
        then (.found (candidate pt.draw.1).toNat (2 * (candidate pt.draw.1).toNat + 1) (attempts + 1),
              (tryCandidate (candidate pt.draw.1).toNat pt.draw.2).2)
        else searchFrom k (attempts + 1) (tryCandidate (candidate pt.draw.1).toNat pt.draw.2).2 := by
  rw [searchFrom]
  split <;> simp_all

/-- The three ends of a candidate (R153): constraint, oracle on `q`, oracle on `2q + 1`. -/
theorem tryCandidate_eq (q : Nat) (pt : RngPort) :
    tryCandidate q pt
      = if q % 12 = 5
        then if (mr q pt).1 = true then mr (2 * q + 1) (mr q pt).2 else (false, (mr q pt).2)
        else (false, pt) := by
  unfold tryCandidate constraintHolds
  by_cases h : q % 12 = 5
  · simp only [h, decide_true, if_true]
    split <;> simp_all
  · simp [h]

/-- A draw leaves the stream one further on (R72). -/
theorem draw_eq (pt : RngPort) : pt.draw = (pt.ahead 0, pt.afterDraws 1) := rfl

/-- No draws change nothing (R72). -/
theorem afterDraws_zero (pt : RngPort) : pt.afterDraws 0 = pt := by
  cases pt
  simp [RngPort.afterDraws]

/-- Draws after draws (R72). -/
theorem afterDraws_afterDraws (pt : RngPort) (j k : Nat) : (pt.afterDraws j).afterDraws k = pt.afterDraws (j + k) := by
  simp [RngPort.afterDraws, Nat.add_assoc, BitVec.add_assoc, BitVec.ofNat_add]

/-- DRAWCNT after a seeding and draws counts those draws (R35, R71). -/
theorem rngSeed_afterDraws_drawcnt (pt : RngPort) (v : Word) (k : Nat) :
    ((pt.rngSeed v).afterDraws k).drawcnt = BitVec.ofNat 32 k := by
  simp [RngPort.afterDraws, RngPort.rngSeed]

/-- The values to come after draws (R72). -/
theorem ahead_afterDraws (pt : RngPort) (j k : Nat) : (pt.afterDraws j).ahead k = pt.ahead (j + k) := by
  simp [RngPort.afterDraws, RngPort.ahead, Nat.add_assoc]

/-! ### The meanings -/

/-- MODPOW (R130, R131). -/
theorem modpowState_cases (s : State) :
    (s.n = 0#32 ∧ modpowState s = s.raiseError .arithmeticInvariant)
      ∨ (s.n ≠ 0#32 ∧ modpowState s
          = State.complete { s with r := BitVec.ofNat 32 (modPow s.a.toNat s.b.toNat s.n.toNat) }) := by
  unfold modpowState
  split
  · exact .inl ⟨‹_›, rfl⟩
  · exact .inr ⟨‹_›, rfl⟩

/-- MRTEST (R110, R111). -/
theorem mrtestState_cases (s : State) :
    ((s.n.toNat < 3 ∨ s.n.toNat % 2 = 0) ∧ mrtestState s = s.raiseError .arithmeticInvariant)
      ∨ (3 ≤ s.n.toNat ∧ s.n.toNat % 2 = 1 ∧ mrtestState s
          = State.complete { s with r := flagWord (mr s.n.toNat s.port).1, port := (mr s.n.toNat s.port).2 }) := by
  unfold mrtestState
  split
  · exact .inl ⟨‹_›, rfl⟩
  · exact .inr ⟨by omega, by omega, rfl⟩

/-- SPSEARCH (R152). -/
theorem spsearchState_cases (bound : Nat) (s : State) :
    (∃ k pt, safePrimeFind bound s.port = (.exhausted k, pt)
        ∧ spsearchState bound s = (s.afterSearch k pt).raiseError .primeSearchExhausted)
      ∨ (∃ q p k pt, safePrimeFind bound s.port = (.found q p k, pt)
        ∧ spsearchState bound s
          = State.complete { s.afterSearch k pt with q := BitVec.ofNat 32 q, p := BitVec.ofNat 32 p }) := by
  unfold spsearchState
  split
  · exact .inl ⟨_, _, ‹_›, rfl⟩
  · exact .inr ⟨_, _, _, _, ‹_›, rfl⟩

/-- KEYGEN (R170): the seed refused, the search exhausted, or the commit. -/
theorem keygenState_cases (bound : Nat) (s : State) :
    (10000 < s.seed.toNat ∧ keygenState bound s = s.raiseError .invalidSeed)
      ∨ (∃ k pt, s.seed.toNat ≤ 10000 ∧ safePrimeFind bound (s.port.rngSeed s.seed) = (.exhausted k, pt)
        ∧ keygenState bound s = (s.afterSearch k pt).raiseError .primeSearchExhausted)
      ∨ (∃ q p k pt, s.seed.toNat ≤ 10000 ∧ safePrimeFind bound (s.port.rngSeed s.seed) = (.found q p k, pt)
        ∧ keygenState bound s = keygenCommit q p (s.afterSearch k pt)) := by
  unfold keygenState
  split
  · exact .inl ⟨‹_›, rfl⟩
  · have hs : s.seed.toNat ≤ 10000 := Nat.le_of_not_lt ‹_›
    split
    · exact .inr (.inl ⟨_, _, hs, ‹_›, rfl⟩)
    · exact .inr (.inr ⟨_, _, _, _, hs, ‹_›, rfl⟩)

/-- The end of KEYGEN (R173 to R176): `d = p`, or the key is written. -/
theorem keygenCommit_cases (q p : Nat) (s : State) :
    (keyExponent p s.port.draw.1 = p
        ∧ keygenCommit q p s = State.raiseError { s with port := s.port.draw.2 } .arithmeticInvariant)
      ∨ (keyExponent p s.port.draw.1 ≠ p ∧ keygenCommit q p s
          = State.complete { s with
              port := s.port.draw.2, q := BitVec.ofNat 32 q, p := BitVec.ofNat 32 p, g := 2#32,
              e := BitVec.ofNat 32 (modPow 2 (keyExponent p s.port.draw.1) p),
              d := BitVec.ofNat 32 (keyExponent p s.port.draw.1) }) := by
  by_cases h : keyExponent p s.port.draw.1 = p
  · exact .inl ⟨h, by simp only [keygenCommit]; rw [if_pos h]⟩
  · exact .inr ⟨h, by simp only [keygenCommit]; rw [if_neg h]⟩

/-- ENC (R191, R193). -/
theorem encState_cases (s : State) :
    (s.icnt = 0#3 ∧ encState s = s.raiseError .illegalRequest)
      ∨ (s.icnt ≠ 0#3 ∧ s.p.toNat ≤ s.block.toNat ∧ encState s = s.raiseError .arithmeticInvariant)
      ∨ (s.icnt ≠ 0#3 ∧ s.p ≠ 0#32 ∧ s.block.toNat < s.p.toNat ∧ encState s = encCommit s) := by
  unfold encState
  split
  · exact .inl ⟨‹_›, rfl⟩
  · split
    · refine .inr (.inl ⟨‹_›, ?_, rfl⟩)
      have h : s.p = 0#32 := ‹_›
      rw [h]
      exact Nat.zero_le _
    · split
      · exact .inr (.inl ⟨‹_›, ‹_›, rfl⟩)
      · exact .inr (.inr ⟨‹_›, ‹_›, Nat.lt_of_not_le ‹_›, rfl⟩)

/-- DEC (R210, R212). -/
theorem decState_cases (s : State) :
    (s.ocnt ≠ 0#3 ∧ decState s = s.raiseError .illegalRequest)
      ∨ (s.ocnt = 0#3 ∧ (s.p.toNat ≤ s.d.toNat ∨ s.p.toNat ≤ s.c1.toNat ∨ s.p.toNat ≤ s.c2.toNat)
        ∧ decState s = s.raiseError .arithmeticInvariant)
      ∨ (s.ocnt = 0#3 ∧ s.d.toNat < s.p.toNat ∧ s.c1.toNat < s.p.toNat ∧ s.c2.toNat < s.p.toNat
        ∧ decState s = State.complete { s with m := s.decrypted, obuf := s.decrypted, ocnt := 4#3 }) := by
  unfold decState
  split
  · exact .inl ⟨‹_›, rfl⟩
  · have ho : s.ocnt = 0#3 := not_not.mp ‹_›
    split
    · have h : s.p = 0#32 := ‹_›
      exact .inr (.inl ⟨ho, .inl (by rw [h]; exact Nat.zero_le _), rfl⟩)
    · split
      · exact .inr (.inl ⟨ho, .inl ‹_›, rfl⟩)
      · split
        · exact .inr (.inl ⟨ho, .inr ‹_›, rfl⟩)
        · exact .inr (.inr ⟨ho, by omega, by omega, by omega, rfl⟩)

/-- PUSH (R190). -/
theorem pushState_cases (v : Word) (s : State) :
    ((256 ≤ v.toNat ∨ s.icnt = 4#3) ∧ pushState v s = s.illegalAccess)
      ∨ (v.toNat < 256 ∧ s.icnt ≠ 4#3 ∧ pushState v s = (s.pushByte (v.setWidth 8)).answerWrite) := by
  have hv := shiftRight_eight_eq_zero v
  unfold pushState
  split
  · case isTrue h =>
    refine .inl ⟨?_, rfl⟩
    rcases h with h | h
    · exact .inl (Nat.le_of_not_lt (mt hv.mpr h))
    · exact .inr h
  · case isFalse h =>
    have h' := not_or.mp h
    exact .inr ⟨hv.mp (not_not.mp h'.1), h'.2, rfl⟩

/-- POP (R215). -/
theorem popState_cases (s : State) :
    (s.ocnt = 0#3 ∧ popState s = s.illegalAccess)
      ∨ (s.ocnt ≠ 0#3 ∧ popState s = s.popByte.answerRead s.nextByte) := by
  unfold popState
  split
  · exact .inl ⟨‹_›, rfl⟩
  · exact .inr ⟨‹_›, rfl⟩

/-- A command other than SRST ends successfully, or by an error that has written nothing but ATTEMPTS and the
random-source port (R31, R245). -/
theorem command_cases (i : Instr) (s t : State) (h : exec i s = .next t) (hc : isCommand i = true) (hr : i ≠ .srst) :
    (∃ s1, t = State.complete s1) ∨ ∃ k a pt, t = State.raiseError { s with attempts := a, port := pt } k := by
  have err : ∀ k, s.raiseError k = State.raiseError { s with attempts := s.attempts, port := s.port } k := fun _ => rfl
  cases i with
  | modpow =>
    have e : t = modpowState s := by cases h; rfl
    rcases modpowState_cases s with ⟨_, h1⟩ | ⟨_, h1⟩
    · exact .inr ⟨_, _, _, e.trans (h1.trans (err _))⟩
    · exact .inl ⟨_, e.trans h1⟩
  | mrtest =>
    have e : t = mrtestState s := by cases h; rfl
    rcases mrtestState_cases s with ⟨_, h1⟩ | ⟨_, _, h1⟩
    · exact .inr ⟨_, _, _, e.trans (h1.trans (err _))⟩
    · exact .inl ⟨_, e.trans h1⟩
  | spsearch =>
    have e : t = spsearchState Config.maxAttempts s := by cases h; rfl
    rcases spsearchState_cases Config.maxAttempts s with ⟨k, pt, _, h1⟩ | ⟨q, p, k, pt, _, h1⟩
    · exact .inr ⟨_, _, _, e.trans h1⟩
    · exact .inl ⟨_, e.trans h1⟩
  | keygen =>
    have e : t = keygenState Config.maxAttempts s := by cases h; rfl
    rcases keygenState_cases Config.maxAttempts s with ⟨_, h1⟩ | ⟨k, pt, _, _, h1⟩ | ⟨q, p, k, pt, _, _, h1⟩
    · exact .inr ⟨_, _, _, e.trans (h1.trans (err _))⟩
    · exact .inr ⟨_, _, _, e.trans h1⟩
    · rcases keygenCommit_cases q p (s.afterSearch k pt) with ⟨_, h2⟩ | ⟨_, h2⟩
      · exact .inr ⟨_, _, _, e.trans (h1.trans h2)⟩
      · exact .inl ⟨_, e.trans (h1.trans h2)⟩
  | enc =>
    have e : t = encState s := by cases h; rfl
    rcases encState_cases s with ⟨_, h1⟩ | ⟨_, _, h1⟩ | ⟨_, _, _, h1⟩
    · exact .inr ⟨_, _, _, e.trans (h1.trans (err _))⟩
    · exact .inr ⟨_, _, _, e.trans (h1.trans (err _))⟩
    · exact .inl ⟨_, e.trans h1⟩
  | dec =>
    have e : t = decState s := by cases h; rfl
    rcases decState_cases s with ⟨_, h1⟩ | ⟨_, _, h1⟩ | ⟨_, _, _, _, h1⟩
    · exact .inr ⟨_, _, _, e.trans (h1.trans (err _))⟩
    · exact .inr ⟨_, _, _, e.trans (h1.trans (err _))⟩
    · exact .inl ⟨_, e.trans h1⟩
  | srst => exact absurd rfl hr
  | flush => exact .inl ⟨_, by cases h; rfl⟩
  | rseed => exact .inl ⟨_, by cases h; rfl⟩
  | push v => simp [isCommand] at hc
  | pop => simp [isCommand] at hc

/-- To show something of every outcome of every instruction, show it of each of these: all that `exec` can do. -/
theorem exec_outcomes (Q : Instr → State → State → Prop)
    (modpowFails : ∀ s, Q .modpow s (s.raiseError .arithmeticInvariant))
    (modpowEnds : ∀ s v, Q .modpow s (State.complete { s with r := v }))
    (mrtestFails : ∀ s, Q .mrtest s (s.raiseError .arithmeticInvariant))
    (mrtestEnds : ∀ s, Q .mrtest s
      (State.complete { s with r := flagWord (mr s.n.toNat s.port).1, port := (mr s.n.toNat s.port).2 }))
    (spsearchFails : ∀ s k pt, safePrimeFind Config.maxAttempts s.port = (.exhausted k, pt) →
      Q .spsearch s ((s.afterSearch k pt).raiseError .primeSearchExhausted))
    (spsearchEnds : ∀ s q p k pt, safePrimeFind Config.maxAttempts s.port = (.found q p k, pt) →
      Q .spsearch s
        (State.complete { s.afterSearch k pt with q := BitVec.ofNat 32 q, p := BitVec.ofNat 32 p }))
    (keygenRefuses : ∀ s, Q .keygen s (s.raiseError .invalidSeed))
    (keygenExhausts : ∀ s k pt, safePrimeFind Config.maxAttempts (s.port.rngSeed s.seed) = (.exhausted k, pt) →
      Q .keygen s ((s.afterSearch k pt).raiseError .primeSearchExhausted))
    (keygenFails : ∀ s q p k pt, safePrimeFind Config.maxAttempts (s.port.rngSeed s.seed) = (.found q p k, pt) →
      Q .keygen s (State.raiseError { s.afterSearch k pt with port := pt.draw.2 } .arithmeticInvariant))
    (keygenEnds : ∀ s q p k pt, safePrimeFind Config.maxAttempts (s.port.rngSeed s.seed) = (.found q p k, pt) →
      Q .keygen s (State.complete { s.afterSearch k pt with
        port := pt.draw.2, q := BitVec.ofNat 32 q, p := BitVec.ofNat 32 p, g := 2#32,
        e := BitVec.ofNat 32 (modPow 2 (keyExponent p pt.draw.1) p),
        d := BitVec.ofNat 32 (keyExponent p pt.draw.1) }))
    (encRefuses : ∀ s, Q .enc s (s.raiseError .illegalRequest))
    (encFails : ∀ s, Q .enc s (s.raiseError .arithmeticInvariant))
    (encEnds : ∀ s, Q .enc s (encCommit s))
    (decRefuses : ∀ s, Q .dec s (s.raiseError .illegalRequest))
    (decFails : ∀ s, Q .dec s (s.raiseError .arithmeticInvariant))
    (decEnds : ∀ s, Q .dec s (State.complete { s with m := s.decrypted, obuf := s.decrypted, ocnt := 4#3 }))
    (srstEnds : ∀ s, Q .srst s s.resetCore.answerWrite)
    (flushEnds : ∀ s, Q .flush s (State.complete { s with ibuf := 0#32, icnt := 0#3, obuf := 0#32, ocnt := 0#3 }))
    (rseedEnds : ∀ s, Q .rseed s (State.complete { s with port := s.port.rngSeed s.seed }))
    (pushRefuses : ∀ s v, Q (.push v) s s.illegalAccess)
    (pushEnds : ∀ s v, v.toNat < 256 → s.icnt ≠ 4#3 → Q (.push v) s (s.pushByte (v.setWidth 8)).answerWrite)
    (popRefuses : ∀ s, Q .pop s s.illegalAccess)
    (popEnds : ∀ s, s.ocnt ≠ 0#3 → Q .pop s (s.popByte.answerRead s.nextByte)) :
    ∀ i s t, exec i s = .next t → Q i s t := by
  intro i s t h
  cases i with
  | modpow =>
    have e : t = modpowState s := by cases h; rfl
    rcases modpowState_cases s with ⟨_, h1⟩ | ⟨_, h1⟩ <;> rw [e, h1]
    exacts [modpowFails _, modpowEnds _ _]
  | mrtest =>
    have e : t = mrtestState s := by cases h; rfl
    rcases mrtestState_cases s with ⟨_, h1⟩ | ⟨_, _, h1⟩ <;> rw [e, h1]
    exacts [mrtestFails _, mrtestEnds _]
  | spsearch =>
    have e : t = spsearchState Config.maxAttempts s := by cases h; rfl
    rcases spsearchState_cases Config.maxAttempts s with ⟨k, pt, f, h1⟩ | ⟨q, p, k, pt, f, h1⟩ <;> rw [e, h1]
    exacts [spsearchFails _ _ _ f, spsearchEnds _ _ _ _ _ f]
  | keygen =>
    have e : t = keygenState Config.maxAttempts s := by cases h; rfl
    rcases keygenState_cases Config.maxAttempts s with ⟨_, h1⟩ | ⟨k, pt, _, f, h1⟩ | ⟨q, p, k, pt, _, f, h1⟩ <;>
      rw [e, h1]
    · exact keygenRefuses _
    · exact keygenExhausts _ _ _ f
    · rcases keygenCommit_cases q p (s.afterSearch k pt) with ⟨_, h2⟩ | ⟨_, h2⟩ <;> rw [h2]
      exacts [keygenFails _ _ _ _ _ f, keygenEnds _ _ _ _ _ f]
  | enc =>
    have e : t = encState s := by cases h; rfl
    rcases encState_cases s with ⟨_, h1⟩ | ⟨_, _, h1⟩ | ⟨_, _, _, h1⟩ <;> rw [e, h1]
    exacts [encRefuses _, encFails _, encEnds _]
  | dec =>
    have e : t = decState s := by cases h; rfl
    rcases decState_cases s with ⟨_, h1⟩ | ⟨_, _, h1⟩ | ⟨_, _, _, _, h1⟩ <;> rw [e, h1]
    exacts [decRefuses _, decFails _, decEnds _]
  | srst =>
    have e : t = s.resetCore.answerWrite := by cases h; rfl
    exact e ▸ srstEnds s
  | flush =>
    have e : t = State.complete { s with ibuf := 0#32, icnt := 0#3, obuf := 0#32, ocnt := 0#3 } := by cases h; rfl
    exact e ▸ flushEnds s
  | rseed =>
    have e : t = State.complete { s with port := s.port.rngSeed s.seed } := by cases h; rfl
    exact e ▸ rseedEnds s
  | push v =>
    have e : t = pushState v s := by cases h; rfl
    rcases pushState_cases v s with ⟨_, h1⟩ | ⟨hv, hn, h1⟩ <;> rw [e, h1]
    exacts [pushRefuses _ _, pushEnds _ _ hv hn]
  | pop =>
    have e : t = popState s := by cases h; rfl
    rcases popState_cases s with ⟨_, h1⟩ | ⟨hn, h1⟩ <;> rw [e, h1]
    exacts [popRefuses _, popEnds _ hn]

end Machine
end Sys2Proof
end

