-- ==== Sys2Proof/Laws/PerInstr.lean ====
section
/-! SUPPORT. The family EncodedShape, per instruction: the access that encodes an instruction is one aligned word access
inside the window (R62), a read of BOUT for POP and a write of CMD or BIN for the others (R92, R96). -/

namespace Sys2Proof.Laws.EncodedShape

/-- The encoding of `i` is a well-formed access of the location the opcode table gives its row. -/
def Statement (i : Instr) : Prop :=
  (i = .pop ∧ encode i = .read 4 Reg.bout.offset)
    ∨ (∃ v, i = .push v ∧ encode i = .write 4 Reg.bin.offset v)
    ∨ (∃ w : Word, 1 ≤ w.toNat ∧ w.toNat ≤ 9 ∧ encode i = .write 4 Reg.cmd.offset w)

theorem modpow : Statement .modpow := .inr (.inr ⟨1#32, by decide, by decide, rfl⟩)
theorem mrtest : Statement .mrtest := .inr (.inr ⟨2#32, by decide, by decide, rfl⟩)
theorem spsearch : Statement .spsearch := .inr (.inr ⟨3#32, by decide, by decide, rfl⟩)
theorem keygen : Statement .keygen := .inr (.inr ⟨4#32, by decide, by decide, rfl⟩)
theorem enc : Statement .enc := .inr (.inr ⟨5#32, by decide, by decide, rfl⟩)
theorem dec : Statement .dec := .inr (.inr ⟨6#32, by decide, by decide, rfl⟩)
theorem srst : Statement .srst := .inr (.inr ⟨7#32, by decide, by decide, rfl⟩)
theorem flush : Statement .flush := .inr (.inr ⟨8#32, by decide, by decide, rfl⟩)
theorem rseed : Statement .rseed := .inr (.inr ⟨9#32, by decide, by decide, rfl⟩)
theorem push (data : Word) : Statement (.push data) := .inr (.inl ⟨data, rfl, rfl⟩)
theorem pop : Statement .pop := .inl ⟨rfl, rfl⟩

end Sys2Proof.Laws.EncodedShape
end

