-- ==== Sys2Proof/Tests/Slice0.lean ====
section
/-! SUPPORT. Tests: the smoke test of WellFormed, the words of every instruction written out from spec R92 and R96, single
steps with results taken from spec/95_test_vectors.md, and for every statement with hypotheses a witness that meets them. -/

namespace Sys2Proof.Tests

open Sys2Proof Sys2Proof.Machine

/-! ### Helpers: small states -/

/-- A view of the next state of an answer. -/
def after {α : Type} (x : Answer) (view : State → α) : Option α :=
  match x with
  | .next t => some (view t)
  | .fault _ => none
  | .refused _ => none

/-- A port whose source, last seeded with `x`, hands out the given draws first. -/
def portOf (x : Option Word) (draws : List Word) : RngPort := ⟨⟨x, 0, [(x, draws)]⟩, 0#32⟩

/-- The reset state on a source with the given draws. -/
def withDraws (draws : List Word) : State := { State.reset with port := portOf none draws }

/-- The twenty base draws 11 to 30 (K20 of spec 95). -/
def pairBases : List Word :=
  [11, 12, 13, 14, 15, 16, 17, 18, 19, 20] ++ [21, 22, 23, 24, 25, 26, 27, 28, 29, 30]

/-- The search draws of program P4 (BASE36 of spec 95): four attempts, the fourth accepted. -/
def fourAttempts : List Word :=
  [0x00000000, 0xC0000001, 0x00000001, 0x00000055, 1, 2, 3, 4, 5, 6, 7, 8, 9, 10, 0x00000001, 0x000003B5] ++ pairBases

/-- The small key of spec 95. -/
def smallKey (s : State) : State := { s with p := 107#32, g := 2#32, e := 32#32, d := 5#32 }

/-- The big key of spec 95. -/
def bigKey (s : State) : State :=
  { s with p := 0x8000076B#32, g := 2#32, e := 0x5ADDD1FE#32, d := 0x075BCD15#32 }

/-- A state about to serve one access. -/
def serving (x : Access) (s : State) : State := { s with host := [.access x] }

/-! ### WellFormed -/

theorem test_push_above_byte_is_ill_formed : (Instr.push 0x00000100#32).wellFormed = false := by decide
theorem test_push_top_bit_is_ill_formed : (Instr.push 0x80000041#32).wellFormed = false := by decide
theorem test_push_byte_is_well_formed : (Instr.push 0x000000FF#32).wellFormed = true := by decide
theorem test_commands_are_well_formed :
    ([.modpow, .mrtest, .spsearch, .keygen, .enc, .dec, .srst, .flush, .rseed, .pop] : List Instr).all Instr.wellFormed
      = true := by decide

/-! ### Decode: the words of R92 and R96, written out bit by bit (RSVD 24 bits, OPCODE 8 bits) -/

theorem test_decode_modpow : decode (.write 4 0x00 (0b000000000000000000000000#24 ++ 0b00000001#8)) = .ok (.instr .modpow) := by
  decide
theorem test_decode_mrtest : decode (.write 4 0x00 (0b000000000000000000000000#24 ++ 0b00000010#8)) = .ok (.instr .mrtest) := by
  decide
theorem test_decode_spsearch :
    decode (.write 4 0x00 (0b000000000000000000000000#24 ++ 0b00000011#8)) = .ok (.instr .spsearch) := by decide
theorem test_decode_keygen : decode (.write 4 0x00 (0b000000000000000000000000#24 ++ 0b00000100#8)) = .ok (.instr .keygen) := by
  decide
theorem test_decode_enc : decode (.write 4 0x00 (0b000000000000000000000000#24 ++ 0b00000101#8)) = .ok (.instr .enc) := by
  decide
theorem test_decode_dec : decode (.write 4 0x00 (0b000000000000000000000000#24 ++ 0b00000110#8)) = .ok (.instr .dec) := by
  decide
theorem test_decode_srst : decode (.write 4 0x00 (0b000000000000000000000000#24 ++ 0b00000111#8)) = .ok (.instr .srst) := by
  decide
theorem test_decode_flush : decode (.write 4 0x00 (0b000000000000000000000000#24 ++ 0b00001000#8)) = .ok (.instr .flush) := by
  decide
theorem test_decode_rseed : decode (.write 4 0x00 (0b000000000000000000000000#24 ++ 0b00001001#8)) = .ok (.instr .rseed) := by
  decide
theorem test_decode_push :
    decode (.write 4 0x44 (0b000000000000000000000000#24 ++ 0b11111111#8)) = .ok (.instr (.push 0xFF#32)) := by decide
theorem test_decode_pop : decode (.read 4 0x48) = .ok (.instr .pop) := by decide

/-- R91, vectors X1, X2, X4, X5: no other CMD word is a command. -/
theorem test_decode_refuses_command_words :
    decode (.write 4 0x00 0x00000000#32) = .error .commandUnassigned
    ∧ decode (.write 4 0x00 0x0000000A#32) = .error .commandUnassigned
    ∧ decode (.write 4 0x00 0x000000FF#32) = .error .commandUnassigned
    ∧ decode (.write 4 0x00 0x00000105#32) = .error .commandReservedBits
    ∧ decode (.write 4 0x00 0x80000001#32) = .error .commandReservedBits := by decide

/-- R64 (a) to (f), vectors X6 to X10, X12: each illegal access is refused by name. -/
theorem test_decode_refuses_accesses :
    decode (.read 2 0x04) = .error .accessSize ∧ decode (.read 4 0x06) = .error .accessMisaligned
    ∧ decode (.read 4 0x100) = .error .accessOutsideWindow ∧ decode (.read 4 0x54) = .error .accessReserved
    ∧ decode (.write 4 0xFC 0#32) = .error .accessReserved ∧ decode (.read 4 0x00) = .error .accessWriteOnly
    ∧ decode (.read 4 0x44) = .error .accessWriteOnly ∧ decode (.write 4 0x20 1#32) = .error .accessReadOnly
    ∧ decode (.write 4 0x08 0x00000001#32) = .error .accessLogReservedBits
    ∧ decode (.write 4 0x44 0x00000100#32) = .error .accessPushData := by decide

/-- The table words: a command, a byte for BIN, and POP, which has no bits. -/
theorem test_table_words :
    decodeTableWord 32 5 = some .enc ∧ decodeTableWord 32 0x41 = some (.push 0x41#32) ∧ decodeTableWord 0 0 = some .pop
    ∧ decodeTableWord 32 0x105 = none := by decide

/-- A table word placed after reset is what the next step runs: FLUSH sets DONE. -/
theorem test_fetch_word_runs :
    after (step (State.reset.withFetchWord 32 8)) (fun t => (t.done, t.err, t.host)) = some (true, false, []) := by decide

/-! ### MODPOW (vectors M12, M14, M22) -/

/-- M14: a scan narrower than 32 bits would leave 1. -/
theorem test_modpow_scans_all_bits :
    after (exec .modpow { State.reset with a := 2#32, b := 0x80000000#32, n := 0xFFFFFFFB#32 })
      (fun t => (t.r, statusWord t)) = some (0xFFFFFFF3#32, 1#32) := by decide +kernel

/-- M22: a zero modulus fails and leaves R. -/
theorem test_modpow_zero_modulus :
    after (exec .modpow { State.reset with r := 0x18#32 }) (fun t => (t.r, statusWord t, t.faultlog))
      = some (0x18#32, 0x33#32, 8#32) := by decide

/-! ### MRTEST (vectors O4, O3) -/

/-- O4: ten strong liars of 561. -/
theorem test_mrtest_false_positive :
    after (exec .mrtest { withDraws [0, 49, 100, 102, 255, 304, 457, 459, 510, 0] with n := 561#32 })
      (fun t => (t.r, t.port.drawcnt, statusWord t)) = some (1#32, 10#32, 1#32) := by decide +kernel

/-- O3: the budget of squarings is exhausted in the first trial. -/
theorem test_mrtest_budget :
    after (exec .mrtest { withDraws [2] with n := 341#32 }) (fun t => (t.r, t.port.drawcnt, statusWord t))
      = some (0#32, 1#32, 1#32) := by decide +kernel

/-! ### SPSEARCH (vectors F4, F2), with the bound of the vector -/

/-- F4: a prime candidate whose `2q + 1` is composite costs twelve draws; the second attempt is accepted. -/
theorem test_spsearch_second_attempt :
    (let t := spsearchState 8 (withDraws ([0x55, 1, 2, 3, 4, 5, 6, 7, 8, 9, 10, 1, 0x3B5] ++ pairBases));
      (t.q, t.p, t.attempts, t.port.drawcnt)) = (0x400003B5#32, 0x8000076B#32, 2#32, 33#32) := by decide +kernel

/-- F2: the bound is reached before a fourth draw. -/
theorem test_spsearch_exhausted :
    (let t := spsearchState 3 (withDraws [0, 2, 4]); (t.q, t.p, t.attempts, t.port.drawcnt, statusWord t, t.faultlog))
      = (0#32, 0#32, 3#32, 3#32, 0x23#32, 4#32) := by decide +kernel

/-! ### KEYGEN and RSEED (vectors K1, K4) -/

/-- K1: the whole key, the attempts and the draws. -/
theorem test_keygen_key :
    (let t := keygenState 8
        { State.reset with seed := 42#32, port := portOf (some 42#32) (fourAttempts ++ [0x075BCD14]) };
      (t.q, t.p, t.g, t.e, t.d, t.attempts, t.port.drawcnt))
      = (0x400003B5#32, 0x8000076B#32, 2#32, 0x5ADDD1FE#32, 0x075BCD15#32, 4#32, 37#32) := by decide +kernel

/-- K4: `d = p` fails after the draw, and no key register is written. -/
theorem test_keygen_exponent_is_modulus :
    (let t := keygenState 8
        { State.reset with seed := 42#32, port := portOf (some 42#32) (fourAttempts ++ [0x8000076A]) };
      (t.q, t.p, t.d, t.port.drawcnt, statusWord t, t.faultlog)) = (0#32, 0#32, 0#32, 37#32, 0x33#32, 8#32) := by
  decide +kernel

/-- R177: RSEED has no range check and clears DRAWCNT. -/
theorem test_rseed_no_range :
    after (exec .rseed { State.reset with seed := 0xFFFFFFFF#32, port := ⟨⟨none, 3, []⟩, 3#32⟩ })
      (fun t => (t.port.rng.seed, t.port.drawcnt, statusWord t)) = some (some 0xFFFFFFFF#32, 0#32, 1#32) := by decide

/-! ### PUSH, ENC, DEC, POP (vectors of 2.5 and 2.6) -/

/-- The second byte of the PUSH table. -/
theorem test_push_shifts :
    after (exec (.push 0x42#32) { State.reset with ibuf := 0x41#32, icnt := 1#3 }) (fun t => (t.ibuf, t.icnt, t.resp))
      = some (0x4142#32, 2#3, some .okayWrite) := by decide

/-- The fifth byte is refused. -/
theorem test_push_full :
    after (exec (.push 0x44#32) { State.reset with ibuf := 0x41424300#32, icnt := 4#3 })
      (fun t => (t.ibuf, t.icnt, t.resp, t.faultlog)) = some (0x41424300#32, 4#3, some .slverr, 16#32) := by decide

/-- E6: the top bit of the block is lost. -/
theorem test_enc_clears_top_bit :
    after (exec .enc (bigKey { withDraws [2] with ibuf := 0xFF000001#32, icnt := 4#3 }))
      (fun t => (t.m, t.c1, t.c2, t.icnt, t.port.drawcnt)) = some (0x7F000001#32, 4#32, 0x30074892#32, 0#3, 1#32) := by
  decide +kernel

/-- E5: a block not below the modulus fails before the draw and stays in the buffer. -/
theorem test_enc_block_too_large :
    after (exec .enc (smallKey { withDraws [] with ibuf := 0x6B#32, icnt := 4#3 }))
      (fun t => (statusWord t, t.c1, t.port.drawcnt)) = some (0x433#32, 0#32, 0#32) := by decide

/-- D7: the block of "ABC". -/
theorem test_dec_block :
    after (exec .dec (bigKey { State.reset with c1 := 0x22FCB8E9#32, c2 := 0x04AB2A85#32 }))
      (fun t => (t.m, t.obuf, statusWord t)) = some (0x41424300#32, 0x41424300#32, 0x4001#32) := by decide +kernel

/-- D10: bit 31 of the recovered value is cleared. -/
theorem test_dec_clears_top_bit :
    after (exec .dec { State.reset with p := 0xFFFFFFFB#32, c1 := 1#32, c2 := 0xFFFFFFFA#32 }) (fun t => t.m)
      = some 0x7FFFFFFA#32 := by decide +kernel

/-- The second POP of the table. -/
theorem test_pop_shifts :
    after (exec .pop { State.reset with obuf := 0x42430000#32, ocnt := 3#3 }) (fun t => (t.resp, t.obuf, t.ocnt))
      = some (some (.okayRead 0x42#32), 0x43000000#32, 2#3) := by decide

/-- X18: a POP of nothing. -/
theorem test_pop_empty :
    after (exec .pop State.reset) (fun t => (t.resp, t.faultlog, statusWord t)) = some (some .slverr, 16#32, 0#32) := by
  decide

/-! ### Control, the bus and the log (vectors X4, X11, X12, X14, X15, X16, X20) -/

/-- X14. -/
theorem test_flush :
    after (exec .flush { State.reset with done := true, err := true, errcode := 3#4, faultlog := 8#32, ibuf := 0x6B#32,
                                          icnt := 4#3, r := 7#32 })
      (fun t => (statusWord t, t.ibuf, t.faultlog, t.r)) = some (1#32, 0#32, 8#32, 7#32) := by decide

/-- X15: the source is not touched, DRAWCNT is. -/
theorem test_srst :
    after (exec .srst { State.reset with done := true, err := true, errcode := 4#4, faultlog := 0x18#32, ocnt := 4#3,
                                         q := 5#32, port := ⟨⟨some 7#32, 9, []⟩, 9#32⟩ })
      (fun t => (statusWord t, t.faultlog, t.q, t.port)) = some (0#32, 0#32, 0#32, ⟨⟨some 7#32, 9, []⟩, 0#32⟩) := by decide

/-- X4: not decoded as ENC. -/
theorem test_illegal_command :
    after (step (serving (.write 4 0x00 0x105#32) { State.reset with icnt := 1#3, ibuf := 1#32 }))
      (fun t => (t.resp, statusWord t, t.faultlog, t.port.drawcnt)) = some (some .okayWrite, 0x143#32, 16#32, 0#32) := by
  decide

/-- X11 and X12: clearing one bit; a reserved bit refuses the whole write. -/
theorem test_faultlog_write :
    after (step (serving (.write 4 0x08 8#32) { State.reset with faultlog := 0x1E#32 })) (fun t => t.faultlog)
        = some 0x16#32
    ∧ after (step (serving (.write 4 0x08 1#32) { State.reset with faultlog := 8#32 })) (fun t => (t.faultlog, t.resp))
        = some (0x18#32, some .slverr) := by decide

/-- X16 and X20: ID, and an illegal access that leaves STATUS. -/
theorem test_id_and_illegal_read :
    after (step (serving (.read 4 0x0C) State.reset)) (fun t => t.resp) = some (some (.okayRead 0x504B4331#32))
    ∧ after (step (serving (.read 4 0x00) { State.reset with done := true, err := true, errcode := 3#4 }))
        (fun t => (statusWord t, t.resp)) = some (0x33#32, some .slverr) := by decide

/-! ### Witnesses: every hypothesis of every statement can be met -/

/-- A source that hands out `n` zeros: each candidate is 0x40000000, whose residue is 4. -/
def zeros (x : Option Word) (n k : Nat) (c : Word) : RngPort := ⟨⟨x, k, [(x, List.replicate n 0#32)]⟩, c⟩

/-- A zero draw is rejected by the constraint. -/
theorem zeros_rejected (x : Option Word) (n k : Nat) (c : Word) (h : k < n) :
    (zeros x n k c).draw = (0#32, zeros x n (k + 1) (c + 1#32)) := by
  simp [zeros, RngPort.draw, Rng.value, Rng.advance, h]

/-- The search over zeros is exhausted. -/
theorem zeros_exhausted (x : Option Word) (n : Nat) : ∀ (j a k : Nat) (c : Word), k + j ≤ n →
    (searchFrom j a (zeros x n k c)).1 = .exhausted (a + j)
  | 0, _, _, _, _ => rfl
  | j + 1, a, k, c, h => by
    have e : tryCandidate (candidate 0#32).toNat (zeros x n (k + 1) (c + 1#32)) = (false, zeros x n (k + 1) (c + 1#32)) := by
      rw [tryCandidate_eq, if_neg (by decide)]
    rw [searchFrom_succ, zeros_rejected x n k c (by omega)]
    simp only [e]
    rw [if_neg (by decide), zeros_exhausted x n j (a + 1) (k + 1) (c + 1#32) (by omega), Nat.add_assoc, Nat.add_comm 1 j]

/-- With the OPEN bound: draws that make the first candidate accepted, and draws that exhaust the search. -/
theorem witness_search_found (x : Option Word) (rest : List Word) (hx : x = none ∨ x = some 42#32)
    (hr : rest = [] ∨ rest = [0x075BCD14] ∨ rest = [0x8000076A]) :
    safePrimeFind Config.maxAttempts (portOf x ([0x3B5] ++ pairBases ++ rest))
      = (.found 0x400003B5 0x8000076B 1, (portOf x ([0x3B5] ++ pairBases ++ rest)).afterDraws 21) := by
  have h : tryCandidate (candidate (portOf x ([0x3B5] ++ pairBases ++ rest)).draw.1).toNat
      (portOf x ([0x3B5] ++ pairBases ++ rest)).draw.2
      = (true, (portOf x ([0x3B5] ++ pairBases ++ rest)).afterDraws 21) := by
    rcases hx with rfl | rfl <;> rcases hr with rfl | rfl | rfl <;> decide +kernel
  rw [safePrimeFind_first _ _ h]
  have hc : (candidate (portOf x ([0x3B5] ++ pairBases ++ rest)).draw.1).toNat = 0x400003B5 := by
    rcases hx with rfl | rfl <;> rcases hr with rfl | rfl | rfl <;> decide +kernel
  rw [hc]

theorem witness_search_exhausted (x : Option Word) :
    safePrimeFind Config.maxAttempts (zeros x Config.maxAttempts 0 0#32)
      = (.exhausted Config.maxAttempts,
         (safePrimeFind Config.maxAttempts (zeros x Config.maxAttempts 0 0#32)).2) := by
  have h := zeros_exhausted x Config.maxAttempts Config.maxAttempts 0 0 0#32 (by omega)
  rw [Nat.zero_add] at h
  exact Prod.ext h rfl

/-! #### ModPow and Miller–Rabin -/

theorem witness_ModpowPutsPowerIntoR : { State.reset with n := 1#32 }.n ≠ 0#32 ∧ State.reset.n = 0#32 := by decide

/-- The largest operands with the largest and the smallest modulus. -/
theorem witness_ModPowIsPowerModulo :
    0xFFFFFFFF < 2 ^ 32 ∧ 1 ≤ 0xFFFFFFFF ∧ 1 ≤ 1 ∧ 1 < 2 ^ 32 ∧ modPow 0xFFFFFFFF 0xFFFFFFFF 0xFFFFFFFF = 0
      ∧ modPow 7 5 1 = 0 := by decide +kernel

theorem witness_ModPowScanKeepsLoopInvariant :
    31 < 32 ∧ modPowAcc 2 0x80000000 0xFFFFFFFB 1 = 2 ∧ modPowAcc 2 0x80000000 0xFFFFFFFB 2 = 4 := by decide +kernel

theorem witness_ScanProductsFitAccumulator :
    0xFFFFFFFF < 2 ^ 32 ∧ 1 ≤ 0xFFFFFFFF ∧ 0xFFFFFFFE < 0xFFFFFFFF ∧ 1 ≤ 1 ∧ 0 < 1 ∧ 0x7FFFFFFF < 2 ^ 31 := by decide

theorem witness_ModPowEqualsNaiveReference :
    0xFFFFFFFF < 2 ^ 32 ∧ 1 ≤ 1 ∧ modPow 5 117 19 = naivePow 5 19 117 := by decide +kernel

/-- The smallest and the largest odd number, with a pair that meets the uniqueness clause. -/
theorem witness_DecomposeIsUniquePair :
    3 ≤ 3 ∧ 3 % 2 = 1 ∧ 3 < 2 ^ 32 ∧ 0xFFFFFFFF % 2 = 1 ∧ 0xFFFFFFFF < 2 ^ 32 ∧ 3 - 1 = 2 ^ 1 * 1 ∧ 1 % 2 = 1
      ∧ decompose 0x40000001 = (30, 1) ∧ decompose 0xFFFFFFFF = (1, 2147483647) := by decide

/-- Both ends of MR: the tenth trial (9 has the base 1 only), and trial five (O5). -/
theorem witness_MrDrawsOneBasePerTrialStarted :
    mr 9 (portOf none (List.replicate 10 0)) = (true, (portOf none (List.replicate 10 0)).afterDraws 10)
    ∧ mr 561 (portOf none [0, 0, 0, 0, 1]) = (false, (portOf none [0, 0, 0, 0, 1]).afterDraws 5) := by decide +kernel

/-- O7's trial passes at its second squaring; O11's base is a witness. -/
theorem witness_TrialPassesIffStrongProbablePrime :
    3 ≤ 104729 ∧ 104729 < 2 ^ 32 ∧ 13091 < 2 ^ 32 ∧ 1 ≤ 3 ∧ mrTrial 104729 3 13091 8299 = true
      ∧ mrTrial 9 3 1 2 = false := by decide +kernel

theorem witness_MrAcceptsEveryPrime : Nat.Prime 3 ∧ 3 ≤ 3 ∧ Nat.Prime 7919 ∧ 7919 < 2 ^ 32 := by norm_num

theorem witness_MrAcceptsOddWhenDrawsAreZero :
    3 ≤ 9 ∧ 9 % 2 = 1 ∧ 9 < 2 ^ 32 ∧ ∀ j < 10, (portOf none (List.replicate 10 0)).ahead j = 0#32 := by decide

theorem witness_MrtestPutsVerdictIntoR :
    (let s := { State.reset with n := 3#32 }; 3 ≤ s.n.toNat ∧ s.n.toNat % 2 = 1)
    ∧ { State.reset with n := 2#32 }.n.toNat < 3 ∧ { State.reset with n := 4#32 }.n.toNat % 2 = 0 := by decide

/-! #### The search and KEYGEN -/

/-- F5: the single attempt is accepted. -/
theorem witness_FoundPairMeetsConstraint :
    safePrimeFind 1 (portOf none ([0x3B5] ++ pairBases))
      = (.found 0x400003B5 0x8000076B 1, (portOf none ([0x3B5] ++ pairBases)).afterDraws 21) := by decide +kernel

/-- F6, and the draws of F2 for the second clause. -/
theorem witness_SearchExhaustsAtTheBound :
    safePrimeFind 1 (portOf none [0x3B4]) = (.exhausted 1, (portOf none [0x3B4]).afterDraws 1)
    ∧ ∀ j < 3, (candidate ((portOf none [0, 2, 4]).ahead j)).toNat % 12 ≠ 5 := by decide +kernel

/-- Each of the three ways a candidate ends: constraint, oracle on `q`, oracle on `2q + 1`; and an accepted one. -/
theorem witness_SearchTriesOneCandidateAtATime :
    tryCandidate 0x40000000 (portOf none []) = (false, portOf none [])
    ∧ tryCandidate 0x40000001 (portOf none [1]) = (false, (portOf none [1]).afterDraws 1)
    ∧ tryCandidate 0x40000055 (portOf none [1, 2, 3, 4, 5, 6, 7, 8, 9, 10, 1])
        = (false, (portOf none [1, 2, 3, 4, 5, 6, 7, 8, 9, 10, 1]).afterDraws 11)
    ∧ tryCandidate 0x400003B5 (portOf none pairBases) = (true, (portOf none pairBases).afterDraws 20) := by
  decide +kernel

theorem witness_SpsearchLeavesPairInQAndP :
    (∃ (s : State) (q p k : Nat) (pt : RngPort), safePrimeFind Config.maxAttempts s.port = (.found q p k, pt) ∧ s.q = 0#32)
    ∧ ∃ (s : State) (k : Nat) (pt : RngPort), safePrimeFind Config.maxAttempts s.port = (.exhausted k, pt) ∧ s.q = 0#32 :=
  ⟨⟨withDraws ([0x3B5] ++ pairBases ++ []), _, _, _, _, witness_search_found none [] (.inl rfl) (.inl rfl), rfl⟩,
   ⟨{ State.reset with port := zeros none Config.maxAttempts 0 0#32 }, _, _, witness_search_exhausted none, rfl⟩⟩

/-- SEED 42 on a source whose stream for 42 starts with the draws of F5 and then the draw for `d`. -/
def keyState (raw : Word) : State :=
  { State.reset with seed := 42#32, port := portOf (some 42#32) ([0x3B5] ++ pairBases ++ [raw]) }

/-- The search of `keyState` finds the big key's pair (K1, K4). -/
theorem keyState_found (raw : Word) (hr : raw = 0x075BCD14 ∨ raw = 0x8000076A) :
    safePrimeFind Config.maxAttempts ((keyState raw).port.rngSeed (keyState raw).seed)
      = (.found 0x400003B5 0x8000076B 1, (keyState raw).port.afterDraws 21) :=
  witness_search_found (some 42#32) [raw] (.inr rfl) (by rcases hr with rfl | rfl <;> simp)

/-- One state for each clause: a seed one above the range; the last legal seed with an exhausted search; a key; `d = p`. -/
theorem witness_KeygenWritesKeyPair :
    10000 < { State.reset with seed := 10001#32 }.seed.toNat
    ∧ (∃ (s : State) (k : Nat) (pt : RngPort), s.seed.toNat ≤ 10000
        ∧ safePrimeFind Config.maxAttempts (s.port.rngSeed s.seed) = (.exhausted k, pt)
        ∧ s.seed = 10000#32)
    ∧ (∃ pt, (keyState 0x075BCD14).seed.toNat ≤ 10000
        ∧ safePrimeFind Config.maxAttempts ((keyState 0x075BCD14).port.rngSeed (keyState 0x075BCD14).seed)
          = (.found 0x400003B5 0x8000076B 1, pt)
        ∧ 123456789 = (pt.ahead 0).toNat % 0x8000076B + 1 ∧ 123456789 ≠ 0x8000076B)
    ∧ ∃ pt, safePrimeFind Config.maxAttempts ((keyState 0x8000076A).port.rngSeed (keyState 0x8000076A).seed)
          = (.found 0x400003B5 0x8000076B 1, pt)
        ∧ (pt.ahead 0).toNat % 0x8000076B + 1 = 0x8000076B :=
  ⟨by decide,
   ⟨{ State.reset with seed := 10000#32, port := zeros (some 10000#32) Config.maxAttempts 0 0#32 }, _, _, by decide,
    witness_search_exhausted (some 10000#32), rfl⟩,
   ⟨_, by decide, keyState_found _ (.inl rfl), by decide +kernel, by decide⟩,
   ⟨_, keyState_found _ (.inr rfl), by decide +kernel⟩⟩

/-- A KEYGEN that ends without error. -/
theorem witness_SuccessfulKeygenGivesConsistentKey :
    ∃ t, exec .keygen (keyState 0x075BCD14) = .next t ∧ t.err = false := by
  refine ⟨_, rfl, ?_⟩
  have hs : ¬ Config.seedMax < (keyState 0x075BCD14).seed.toNat := by decide
  rw [keygenState, if_neg hs, keyState_found _ (.inl rfl)]
  decide +kernel

theorem witness_KeygenDependsOnSeedAndSourceOnly :
    ∃ s1 s2 t1 t2 : State, s1.seed = s2.seed ∧ s1.seed.toNat ≤ 10000 ∧ s1.port.rng.streams = s2.port.rng.streams
      ∧ exec .keygen s1 = .next t1 ∧ exec .keygen s2 = .next t2 ∧ s1 ≠ s2 :=
  ⟨keyState 0x075BCD14, { keyState 0x075BCD14 with a := 1#32 }, _, _, rfl, by decide, rfl, rfl, rfl, by decide⟩

theorem witness_DrawsAfterSeedingDependOnSeedOnly :
    (⟨⟨none, 5, []⟩, 5#32⟩ : RngPort).rng.streams = (⟨⟨some 9#32, 1, []⟩, 0#32⟩ : RngPort).rng.streams := rfl

/-! #### The block cipher -/

theorem witness_PushAppendsByte :
    (0xFF#32).toNat < 256 ∧ { State.reset with icnt := 3#3 }.icnt ≠ 4#3 ∧ 256 ≤ (0x100#32).toNat
      ∧ { State.reset with icnt := 4#3 }.icnt = 4#3 := by decide

theorem witness_PopReturnsNextByte : { State.reset with ocnt := 1#3 }.ocnt ≠ 0#3 ∧ State.reset.ocnt = 0#3 := by decide

/-- One byte and four bytes, pushed. -/
theorem witness_PushedBytesFormBigEndianBlock :
    State.reset.ibuf = 0#32 ∧ State.reset.icnt = 0#3 ∧ 1 ≤ [0x41#8].length
      ∧ [0x48#8, 0x65#8, 0x6C#8, 0x6C#8].length ≤ 4
      ∧ after (pushAll State.reset [0x41#8]) (fun t => t.block) = some 0x41000000#32
      ∧ after (pushAll State.reset [0x48#8, 0x65#8, 0x6C#8, 0x6C#8]) (fun t => t.block) = some 0x48656C6C#32 := by decide

theorem witness_FourBytesFitTheBuffer :
    State.reset.ibuf = 0#32 ∧ State.reset.icnt = 0#3 ∧ ([] : List Byte).length ≤ 4
      ∧ [0xFF#8, 0#8, 0#8, 1#8].length ≤ 4 ∧ [0xFF#8, 0#8, 0#8, 1#8] ≠ []
      ∧ after (pushAll State.reset [0xFF#8, 0#8, 0#8, 1#8]) (fun t => (t.ibuf, t.icnt))
        = some (0xFF000001#32, 4#3) := by decide

/-- One state for each clause; the third and fourth are the two sides of `m = p` and `m = p - 1` (E5, E4). -/
theorem witness_EncWritesCiphertextPair :
    State.reset.icnt = 0#3
    ∧ (let s := { State.reset with icnt := 1#3 }; s.icnt ≠ 0#3 ∧ s.p = 0#32)
    ∧ (let s := smallKey { State.reset with ibuf := 0x6B#32, icnt := 4#3 };
        s.icnt ≠ 0#3 ∧ s.p ≠ 0#32 ∧ s.p.toNat ≤ s.ibuf.toNat * 2 ^ (8 * (4 - s.icnt.toNat)) % 2 ^ 31)
    ∧ (let s := smallKey { State.reset with ibuf := 0x6A#32, icnt := 4#3 };
        s.icnt ≠ 0#3 ∧ s.p ≠ 0#32 ∧ s.ibuf.toNat * 2 ^ (8 * (4 - s.icnt.toNat)) % 2 ^ 31 < s.p.toNat) := by decide

/-- One state for each clause and each of its alternatives (D18, D14, D11, D12, D13, D6). -/
theorem witness_DecRecoversBlock :
    { State.reset with ocnt := 4#3 }.ocnt ≠ 0#3 ∧ State.reset.p = 0#32
    ∧ (let s := { smallKey State.reset with d := 107#32 }; s.ocnt = 0#3 ∧ s.p.toNat ≤ s.d.toNat)
    ∧ (let s := { smallKey State.reset with c1 := 107#32 }; s.ocnt = 0#3 ∧ s.p.toNat ≤ s.c1.toNat)
    ∧ (let s := { smallKey State.reset with c2 := 107#32 }; s.ocnt = 0#3 ∧ s.p.toNat ≤ s.c2.toNat)
    ∧ (let s := { smallKey State.reset with d := 106#32, c1 := 106#32, c2 := 106#32 };
        s.ocnt = 0#3 ∧ s.p ≠ 0#32 ∧ s.d.toNat < s.p.toNat ∧ s.c1.toNat < s.p.toNat ∧ s.c2.toNat < s.p.toNat) := by
  decide

/-- D1 with the small key. -/
theorem witness_DecryptedBytesPopMostSignificantFirst :
    ∃ t, exec .dec { smallKey State.reset with c1 := 8#32, c2 := 85#32 } = .next t ∧ t.err = false :=
  ⟨_, rfl, by decide +kernel⟩

/-- E1 with D1: the small key, the block 65, the draw 538. -/
theorem witness_DecryptUndoesEncrypt :
    ∃ s t u : State, Nat.Prime s.p.toNat ∧ s.g.toNat % s.p.toNat ≠ 0 ∧ s.d.toNat < s.p.toNat
      ∧ s.e.toNat = s.g.toNat ^ s.d.toNat % s.p.toNat ∧ s.ocnt = 0#3
      ∧ exec .enc s = .next t ∧ t.err = false ∧ exec .dec t = .next u :=
  ⟨smallKey { withDraws [538] with ibuf := 0x41#32, icnt := 4#3 }, _, _,
   (by norm_num : Nat.Prime 107), by decide, by decide, by decide, rfl, rfl, by decide +kernel, rfl⟩

/-! #### The bus, reset and the whole machine -/

theorem witness_ResetInputClearsEveryRegister :
    { State.reset with r := 1#32, host := [.reset] }.host = .reset :: [] := rfl

theorem witness_OtherCommandWordsAreIllegal :
    (serving (.write 4 0x00 0x0000000A#32) State.reset).host = .access (.write 4 0x00 0x0000000A#32) :: [] := rfl

theorem witness_DecodeInvertsEncode :
    (Instr.push 0xFF#32).wellFormed = true ∧ Instr.pop.wellFormed = true
      ∧ decode (.write 4 0x44 0#32) = .ok (.instr (.push 0#32)) := by decide

theorem witness_StepRunsDecodedInstruction :
    (serving (.read 4 0x48) State.reset).host = .access (.read 4 0x48) :: []
      ∧ decode (.read 4 0x48) = .ok (.instr .pop) ∧ Instr.pop.wellFormed = true := by decide

/-- Each entry of the list of R64, and beside the boundaries the accesses that are legal. -/
theorem witness_IllegalAccessesAreExactlyTheListed :
    State.reset.IsIllegal (.read 1 0x04) ∧ State.reset.IsIllegal (.read 4 0x05) ∧ State.reset.IsIllegal (.read 4 0x100)
    ∧ State.reset.IsIllegal (.read 4 0x54) ∧ State.reset.IsIllegal (.write 4 0xFC 0#32)
    ∧ State.reset.IsIllegal (.read 4 0x00) ∧ State.reset.IsIllegal (.read 4 0x44)
    ∧ State.reset.IsIllegal (.write 4 0x50 0#32) ∧ State.reset.IsIllegal (.write 4 0x08 0x20#32)
    ∧ State.reset.IsIllegal (.write 4 0x44 0x100#32) ∧ { State.reset with icnt := 4#3 }.IsIllegal (.write 4 0x44 0#32)
    ∧ State.reset.IsIllegal (.read 4 0x48)
    ∧ ¬ State.reset.IsIllegal (.read 4 0x50) ∧ ¬ State.reset.IsIllegal (.write 4 0x08 0x1E#32)
    ∧ ¬ State.reset.IsIllegal (.write 4 0x44 0xFF#32) ∧ ¬ State.reset.IsIllegal (.write 4 0x00 0xFFFFFFFF#32)
    ∧ ¬ { State.reset with ocnt := 1#3 }.IsIllegal (.read 4 0x48) := by
  simp [State.IsIllegal, State.reset]

theorem witness_PlainReadReturnsCurrentValue :
    (serving (.read 4 0x50) State.reset).host = .access (.read 4 0x50) :: []
      ∧ (let s := serving (.read 4 0x50) { State.reset with port := ⟨⟨none, 3, []⟩, 3#32⟩ }
        (0x50, 3#32) ∈
          [(0x04, BitVec.ofNat 32 (s.done.toNat + 2 * s.err.toNat + 16 * s.errcode.toNat + 256 * s.icnt.toNat
              + 4096 * s.ocnt.toNat)),
           (0x08, s.faultlog), (0x0C, 0x504B4331#32), (0x10, s.seed), (0x14, s.a), (0x18, s.b), (0x1C, s.n),
           (0x20, s.r), (0x24, s.p), (0x28, s.g), (0x2C, s.e), (0x30, s.d), (0x34, s.q), (0x38, s.c1), (0x3C, s.c2),
           (0x40, s.m), (0x4C, s.attempts), (0x50, s.port.drawcnt)]) := by decide

theorem witness_PlainWriteStoresValue :
    (serving (.write 4 0x3C 5#32) State.reset).host = .access (.write 4 0x3C 5#32) :: []
      ∧ (let s := serving (.write 4 0x3C 5#32) State.reset
        let v := 5#32
        (0x3C, { s with c2 := 5#32 }) ∈
          [(0x10, { s with seed := v }), (0x14, { s with a := v }), (0x18, { s with b := v }), (0x1C, { s with n := v }),
           (0x24, { s with p := v }), (0x28, { s with g := v }), (0x2C, { s with e := v }), (0x30, { s with d := v }),
           (0x38, { s with c1 := v }), (0x3C, { s with c2 := v })]) := by decide

theorem witness_FaultlogWriteClearsBits :
    (serving (.write 4 0x08 0x1E#32) State.reset).host = .access (.write 4 0x08 0x1E#32) :: []
      ∧ 0x1E#32 &&& 0xFFFFFFE1#32 = 0#32 ∧ 0x20#32 &&& 0xFFFFFFE1#32 ≠ 0#32 ∧ 1#32 &&& 0xFFFFFFE1#32 ≠ 0#32 := by
  decide

/-- A command that fails, one that succeeds, SRST; and an access that is no word write of CMD. -/
theorem witness_CommandsWriteTheFlags :
    after (exec .modpow State.reset) (fun t => (t.done, t.err, t.errcode)) = some (true, true, 3#4)
    ∧ after (exec .flush State.reset) (fun t => (t.done, t.err, t.errcode)) = some (true, false, 0#4)
    ∧ after (exec .srst State.reset) (fun t => t.done) = some false
    ∧ isCommand .modpow = true ∧ Instr.modpow ≠ .srst
    ∧ (∃ s t x rest, s.host = .access x :: rest ∧ (∀ v, x ≠ .write 4 0x00 v) ∧ step s = .next t ∧ t.done = true) :=
  ⟨by decide, by decide, by decide, by decide, by decide,
   serving (.read 4 0x48) { State.reset with done := true }, _, _, _, rfl, by simp, rfl, rfl⟩

theorem witness_OperandRegistersAreNeverWrittenByCommands :
    after (exec .modpow { State.reset with a := 9#32 }) (fun t => t.a) = some 9#32 ∧ Instr.modpow ≠ .srst := by decide

theorem witness_FaultlogIsSticky :
    after (exec .modpow { State.reset with faultlog := 2#32 }) (fun t => t.faultlog) = some 0xA#32
      ∧ Instr.modpow ≠ .srst ∧ 31 < 32 := by decide

theorem witness_FailedCommandWritesNoResult :
    isCommand .modpow = true ∧ after (exec .modpow State.reset) (fun t => t.err) = some true := by decide

theorem witness_AccessMatrixIsKept :
    ∃ t, exec .flush { State.reset with ibuf := 1#32, icnt := 1#3 } = .next t ∧ Instr.flush ≠ .srst ∧ t.icnt = 0#3 :=
  ⟨_, rfl, by decide, rfl⟩

theorem witness_DrawcntCountsDraws :
    (∃ t, exec .mrtest (withDraws [2]) = .next t) ∧ (∃ t, exec .spsearch (withDraws [2]) = .next t)
      ∧ (∃ t, exec .enc (withDraws [2]) = .next t) ∧ (∃ t, exec .rseed (withDraws [2]) = .next t)
      ∧ (∃ t, exec .keygen { State.reset with seed := 10001#32 } = .next t ∧ 10000 < (10001#32).toNat)
      ∧ ∃ t, exec .keygen (keyState 0x075BCD14) = .next t ∧ (keyState 0x075BCD14).seed.toNat ≤ 10000 ∧ t.err = false :=
  ⟨⟨_, rfl⟩, ⟨_, rfl⟩, ⟨_, rfl⟩, ⟨_, rfl⟩, ⟨_, rfl, by decide⟩,
   let ⟨t, h, he⟩ := witness_SuccessfulKeygenGivesConsistentKey
   ⟨t, h, by decide, he⟩⟩

/-- A state away from reset that meets the invariant, with a step from it. -/
theorem witness_EveryStepKeepsTheCoreInvariant :
    ∃ s t : State, s.Inv ∧ step s = .next t ∧ s.icnt = 3#3 ∧ t.icnt = 4#3 :=
  ⟨serving (.write 4 0x44 0xFF#32) { State.reset with
      done := true, err := true, errcode := 4#4, faultlog := 16#32
      ibuf := 0xFFFFFF#32, icnt := 3#3, obuf := 0x41000000#32, ocnt := 1#3, m := 0x7FFFFFFF#32, q := 0x40000001#32 },
   _, by refine ⟨by decide, by decide, by decide, by decide, by decide, by decide, Nat.zero_le _⟩, rfl, rfl, rfl⟩

theorem witness_IdleAndOutsideSeedingLeaveTheCore :
    State.reset.host = [] ∧ { State.reset with host := [.seedSource 5#32] }.host = .seedSource 5#32 :: []
      ∧ { State.reset with host := [.reset] }.host = .reset :: [] := by decide

end Sys2Proof.Tests
end

section
/-! PROOFS. The scope of a step (R10, R11, R15): which meaning a served action runs, and that every one of them answers a
next state. The reading rules of `serveAccess`, one per request of the decoder, come first. -/

namespace Sys2Proof
namespace Machine

/-! ### What a bus transaction serves, by what its access decodes to (R11, R247) -/

theorem serveAccess_of_instr {x : Access} {i : Instr} (s : State) (hx : decode x = .ok (.instr i)) :
    serveAccess x s = exec i s := by
  simp [serveAccess, hx]

theorem serveAccess_of_readReg {x : Access} {loc : Reg} (s : State) (hx : decode x = .ok (.readReg loc)) :
    serveAccess x s = .next (serveRead loc s) := by
  simp [serveAccess, hx]

theorem serveAccess_of_writeReg {x : Access} {loc : Reg} {v : Word} (s : State)
    (hx : decode x = .ok (.writeReg loc v)) : serveAccess x s = .next (serveWrite loc v s) := by
  simp [serveAccess, hx]

theorem serveAccess_of_error {x : Access} {why : DecodeError} (s : State) (hx : decode x = .error why) :
    serveAccess x s = .next (refuseAccess s why) := by
  simp [serveAccess, hx]

/-! ### Every served action answers a next state (R15) -/

/-- The decoder is total (R247), and each of its four answers is served by a next state. -/
theorem serveAccess_next (x : Access) (s : State) : ∃ t, serveAccess x s = .next t := by
  cases hx : decode x with
  | error why => exact ⟨_, serveAccess_of_error s hx⟩
  | ok request =>
    cases request with
    | instr i =>
      rw [serveAccess_of_instr s hx]
      exact exec_next i s
    | readReg loc => exact ⟨_, serveAccess_of_readReg s hx⟩
    | writeReg loc v => exact ⟨_, serveAccess_of_writeReg s hx⟩

theorem serve_next (x : HostAction) (s : State) : ∃ t, serve x s = .next t := by
  cases x with
  | reset => exact ⟨_, rfl⟩
  | access acc => exact serveAccess_next acc s
  | seedSource v => exact ⟨_, rfl⟩

/-- The core is idle, or it serves the oldest action (R75, R260). -/
theorem step_next (s : State) : ∃ t, step s = .next t := by
  unfold step serveNext
  split
  · exact ⟨_, rfl⟩
  · exact serve_next _ _

/-! ### The obligations -/

/-- Settles O38: the step serves the access, and an access decoded to an instruction is served by its meaning. That the
instruction is well-formed is not needed, as the decoder answers no other. -/
theorem stepRunsDecodedInstruction : Obligations.StepRunsDecodedInstruction := by
  intro s x rest i hhost hx _
  calc step s = serveAccess x { s with host := rest } := step_access s x rest hhost
    _ = exec i { s with host := rest } := serveAccess_of_instr _ hx

/-- Settles O49: no step and no meaning of an instruction faults or is refused. -/
theorem everyStepAnswersNextState : Obligations.EveryStepAnswersNextState :=
  ⟨step_next, exec_next⟩

end Machine
end Sys2Proof
end

section
/-! PROOFS. The draws and the search (R113, R116, R150 to R155): how many draws a loop takes, how far it counts, and what
an accepted candidate is. -/

namespace Sys2Proof
namespace Machine

/-! ### Draws of the oracle and of one candidate (R116, R155) -/

/-- Trials take at least one draw, if any is to run, and at most one each (R116). -/
theorem mrTrials_draws (n t u k : Nat) (pt : RngPort) :
    ∃ i, i ≤ k ∧ (0 < k → 1 ≤ i) ∧ (mrTrials n t u k pt).2 = pt.afterDraws i := by
  induction k generalizing pt with
  | zero => exact ⟨0, by omega, by omega, (afterDraws_zero pt).symm⟩
  | succ k ih =>
    rw [mrTrials_succ]
    split
    · obtain ⟨i, hle, -, hport⟩ := ih pt.draw.2
      exact ⟨1 + i, by omega, by omega, by rw [hport, draw_eq, afterDraws_afterDraws]⟩
    · exact ⟨1, by omega, by omega, rfl⟩

/-- MR takes one to ten draws (R116). -/
theorem mr_draws (n : Nat) (pt : RngPort) : ∃ i, 1 ≤ i ∧ i ≤ 10 ∧ (mr n pt).2 = pt.afterDraws i := by
  obtain ⟨i, hle, hpos, hport⟩ := mrTrials_draws n (decompose n).1 (decompose n).2 10 pt
  exact ⟨i, hpos (by decide), hle, hport⟩

/-- A candidate costs at most twenty draws after its own: two calls of the oracle (R155). -/
theorem tryCandidate_draws (q : Nat) (pt : RngPort) :
    ∃ i, i ≤ 20 ∧ (tryCandidate q pt).2 = pt.afterDraws i := by
  obtain ⟨i, -, hi, hq⟩ := mr_draws q pt
  rw [tryCandidate_eq]
  split
  · split
    · obtain ⟨j, -, hj, hp⟩ := mr_draws (2 * q + 1) (mr q pt).2
      exact ⟨i + j, by omega, by rw [hp, hq, afterDraws_afterDraws]⟩
    · exact ⟨i, by omega, hq⟩
  · exact ⟨0, by omega, (afterDraws_zero pt).symm⟩

/-- Only a candidate that meets the constraint is accepted (R151). -/
theorem constraint_of_accepted {q : Nat} {pt pt' : RngPort} (h : tryCandidate q pt = (true, pt')) : q % 12 = 5 := by
  by_contra hq
  rw [tryCandidate_eq, if_neg hq] at h
  simp at h

/-! ### The candidate (R150) -/

theorem candidate_lt (raw : Word) : (candidate raw).toNat < 2 ^ 31 := by
  have h : candidate raw = clearTop (raw ||| 0x40000000#32) := rfl
  rw [h, clearTop_toNat]
  exact Nat.mod_lt _ (by decide)

/-- Bit 30 of a candidate is set, so it is at least `2^30`. -/
theorem le_candidate (raw : Word) : 2 ^ 30 ≤ (candidate raw).toNat := by
  apply Nat.ge_two_pow_of_testBit
  rw [BitVec.testBit_toNat]
  simp [candidate]

/-! ### The search (R151, R154) -/

/-- The count a search answers with, in both of its ends. -/
def SearchResult.attempts : SearchResult → Nat
  | .found _ _ k => k
  | .exhausted k => k

/-- A search samples `m` candidates, at most as many as it may, and takes `m` to `21 * m` draws (R154, R155). -/
theorem searchFrom_draws (k attempts : Nat) (pt : RngPort) :
    ∃ m draws, m ≤ k ∧ m ≤ draws ∧ draws ≤ 21 * m ∧ (searchFrom k attempts pt).1.attempts = attempts + m
      ∧ (searchFrom k attempts pt).2 = pt.afterDraws draws := by
  induction k generalizing attempts pt with
  | zero => exact ⟨0, 0, by omega, by omega, by omega, rfl, (afterDraws_zero pt).symm⟩
  | succ k ih =>
    obtain ⟨i, hi, hport⟩ := tryCandidate_draws (candidate pt.draw.1).toNat pt.draw.2
    rw [draw_eq, afterDraws_afterDraws] at hport
    rw [searchFrom_succ]
    split
    · exact ⟨1, 1 + i, by omega, by omega, by omega, rfl, hport⟩
    · obtain ⟨m, draws, hm, hlow, hhigh, hcount, hrest⟩ := ih (attempts + 1) (pt.afterDraws (1 + i))
      rw [draw_eq, hport]
      exact ⟨1 + m, 1 + i + draws, by omega, by omega, by omega, by omega, by rw [hrest, afterDraws_afterDraws]⟩

/-- `SafePrimeFind()` counts at most MAX_ATTEMPTS candidates, and one to twenty-one draws for each (R154, R155). -/
theorem safePrimeFind_draws (bound : Nat) (pt : RngPort) :
    ∃ draws, (safePrimeFind bound pt).1.attempts ≤ bound
      ∧ (safePrimeFind bound pt).1.attempts ≤ draws ∧ draws ≤ 21 * (safePrimeFind bound pt).1.attempts
      ∧ (safePrimeFind bound pt).2 = pt.afterDraws draws := by
  obtain ⟨m, draws, hm, hlow, hhigh, hcount, hport⟩ := searchFrom_draws bound 0 pt
  rw [Nat.zero_add] at hcount
  rw [safePrimeFind, hcount]
  exact ⟨draws, hm, hlow, hhigh, hport⟩

/-- The pair found is a candidate that was accepted, with `p = 2q + 1` (R151). -/
theorem searchFrom_found {k attempts q p count : Nat} {pt pt' : RngPort}
    (h : searchFrom k attempts pt = (.found q p count, pt')) :
    ∃ raw pt1, q = (candidate raw).toNat ∧ p = 2 * q + 1 ∧ tryCandidate q pt1 = (true, pt') := by
  induction k generalizing attempts pt with
  | zero => simp [searchFrom] at h
  | succ k ih =>
    rw [searchFrom_succ] at h
    split at h
    · case isTrue haccept =>
      obtain ⟨⟨rfl, rfl, -⟩, rfl⟩ : (_ ∧ _ ∧ _) ∧ _ := by simpa using h
      exact ⟨pt.draw.1, pt.draw.2, rfl, rfl, Prod.ext haccept rfl⟩
    · exact ih h

/-- The `q` found lies in `[2^30, 2^31)` and meets the constraint (R156). -/
theorem safePrimeFind_candidate {bound q p count : Nat} {pt pt' : RngPort}
    (h : safePrimeFind bound pt = (.found q p count, pt')) : 2 ^ 30 ≤ q ∧ q < 2 ^ 31 ∧ q % 12 = 5 := by
  obtain ⟨raw, pt1, rfl, -, haccept⟩ := searchFrom_found h
  exact ⟨le_candidate raw, candidate_lt raw, constraint_of_accepted haccept⟩

/-- MAX_ATTEMPTS fits a register (R7). -/
theorem maxAttempts_lt : Config.maxAttempts < 2 ^ 32 := by
  have := Config.maxAttemptsLessOne.isLt
  unfold Config.maxAttempts
  omega

/-- The count of a search is within the bound, and so fits ATTEMPTS (R7, R34). -/
theorem attempts_of_search {res : SearchResult} {pt pt' : RngPort}
    (h : safePrimeFind Config.maxAttempts pt = (res, pt')) :
    res.attempts ≤ Config.maxAttempts ∧ (BitVec.ofNat 32 res.attempts).toNat = res.attempts := by
  obtain ⟨-, hle, -⟩ := safePrimeFind_draws Config.maxAttempts pt
  rw [h] at hle
  exact ⟨hle, BitVec.toNat_ofNat .. ▸ Nat.mod_eq_of_lt (lt_of_le_of_lt hle maxAttempts_lt)⟩

end Machine
end Sys2Proof
end

section
/-! PROOFS. The invariant of the core (R26, R28, R30 to R32, R34, R40 to R43): each shared operation keeps it, then each
outcome of an instruction, then each step. -/

namespace Sys2Proof
namespace Machine

variable {s : State}

/-! ### The shared operations -/

/-- A successful end writes the flags of success (R31) and no other part of the invariant. -/
theorem State.Inv.complete (h : s.Inv) : s.complete.Inv := by
  obtain ⟨-, hrest⟩ := h
  exact ⟨⟨by simp, by simp, by simp⟩, hrest⟩

/-- An error writes a code of 1 to 4 and a legal bit of the log (R241, R245). -/
theorem State.Inv.raiseError (h : s.Inv) (k : ErrKind) : (s.raiseError k).Inv := by
  obtain ⟨-, hlog, hrest⟩ := h
  exact ⟨⟨by simp, by simp, fun _ => errCode_range k⟩, logSet_legal _ k hlog, hrest⟩

theorem State.Inv.illegalAccess (h : s.Inv) : s.illegalAccess.Inv := by
  obtain ⟨hflags, hlog, hrest⟩ := h
  exact ⟨hflags, logSet_legal _ _ hlog, hrest⟩

theorem State.Inv.refuseAccess (h : s.Inv) (why : DecodeError) : (refuseAccess s why).Inv := by
  rcases refuseAccess_cases s why with e | e <;> rw [e]
  · exact h.raiseError _
  · exact h.illegalAccess

theorem State.Inv.serveRead (h : s.Inv) (loc : Reg) : (serveRead loc s).Inv := by
  rcases serveRead_cases loc s with ⟨v, -, e⟩ | ⟨-, e⟩ <;> rw [e]
  · exact h
  · exact h.illegalAccess

/-- The only plain write that reaches the invariant is that of FAULTLOG, which clears bits (R32, R233). -/
theorem State.Inv.writeReg {t : State} {v : Word} {loc : Reg} (h : s.Inv) (hw : s.writeReg v loc = some t) : t.Inv := by
  cases loc <;> cases hw
  case faultlog =>
    obtain ⟨hflags, hlog, hrest⟩ := h
    exact ⟨hflags, logClear_legal _ v hlog, hrest⟩
  all_goals exact h

theorem State.Inv.serveWrite (h : s.Inv) (loc : Reg) (v : Word) : (serveWrite loc v s).Inv := by
  rcases serveWrite_cases loc v s with ⟨t, hw, e⟩ | ⟨-, e⟩ <;> rw [e]
  · exact (h.writeReg hw : t.Inv)
  · exact h.illegalAccess

/-- Settles O51: every register is 0 at reset. -/
theorem coreInvariantHoldsAtReset : Obligations.CoreInvariantHoldsAtReset :=
  ⟨by decide, by decide, by decide, by decide, by decide, .inl rfl, Nat.zero_le _⟩

/-- The invariant speaks of neither the random source nor the host, in which alone the reset core differs from
`State.reset` (R270). -/
theorem State.resetCore_inv (s : State) : s.resetCore.Inv := coreInvariantHoldsAtReset

/-! ### The buffers (R40 to R43) -/

/-- A byte pushed below the full count stays within the counted bytes. -/
theorem State.InputOk.pushByte (h : s.InputOk) (hroom : s.icnt ≠ 4#3) (x : Byte) : (s.pushByte x).InputOk := by
  obtain ⟨hcount, hbytes⟩ := h
  have hlt : s.icnt.toNat < 4 := lt_of_le_of_ne hcount fun e => hroom (BitVec.eq_of_toNat_eq e)
  have hbytes24 : s.ibuf.toNat < 2 ^ 24 :=
    lt_of_lt_of_le hbytes (Nat.pow_le_pow_right (by decide) (by omega))
  have hx : x.toNat < 256 := x.isLt
  rw [State.InputOk, pushByte_icnt_toNat s x hlt, pushByte_ibuf_toNat s x hbytes24, Nat.mul_add, Nat.pow_add]
  exact ⟨hlt, by omega⟩

/-- A byte popped takes eight bits from the left; zeros enter from the right. -/
theorem State.OutputOk.popByte (h : s.OutputOk) (hfull : s.ocnt ≠ 0#3) : s.popByte.OutputOk := by
  obtain ⟨hcount, hbytes⟩ := h
  obtain ⟨c, hc⟩ : ∃ c, s.ocnt.toNat = c + 1 :=
    Nat.exists_eq_succ_of_ne_zero fun e => hfull (BitVec.eq_of_toNat_eq e)
  have hpop : (s.ocnt - 1#3).toNat = c := by bv_omega
  have hwidth : 32 - 8 * c = 32 - 8 * (c + 1) + 8 := by omega
  have hdvd : 2 ^ (32 - 8 * c) ∣ s.obuf.toNat * 2 ^ 8 := by
    rw [hwidth, Nat.pow_add]
    exact Nat.mul_dvd_mul_right (Nat.dvd_of_mod_eq_zero (hc ▸ hbytes)) _
  rw [State.OutputOk, State.popByte_ocnt, State.popByte_obuf, hpop, BitVec.toNat_shiftLeft, Nat.shiftLeft_eq]
  exact ⟨by omega, Nat.mod_eq_zero_of_dvd ((Nat.dvd_mod_iff (Nat.pow_dvd_pow 2 (by omega))).mpr hdvd)⟩

theorem State.inputOk_of_empty (hbytes : s.ibuf = 0#32) (hcount : s.icnt = 0#3) : s.InputOk := by
  simp [State.InputOk, hbytes, hcount]

theorem State.outputOk_of_empty (hbytes : s.obuf = 0#32) (hcount : s.ocnt = 0#3) : s.OutputOk := by
  simp [State.OutputOk, hbytes, hcount]

/-- A full output buffer has no byte outside the counted ones. -/
theorem State.outputOk_of_full (hcount : s.ocnt = 4#3) : s.OutputOk := by
  simp [State.OutputOk, hcount, Nat.mod_one]

/-! ### The instructions -/

/-- A block has bit 31 cleared (R28, R192, R213). -/
theorem clearTop_lt (v : Word) : (clearTop v).toNat < 2 ^ 31 := by
  rw [clearTop_toNat]
  exact Nat.mod_lt _ (by decide)

/-- A search writes ATTEMPTS within the bound (R34). -/
theorem State.Inv.afterSearch {res : SearchResult} {pt pt' : RngPort} (h : s.Inv)
    (hfind : safePrimeFind Config.maxAttempts pt = (res, pt')) : (s.afterSearch res.attempts pt').Inv := by
  obtain ⟨hflags, hlog, hin, hout, hblock, hcand, -⟩ := h
  obtain ⟨hle, htoNat⟩ := attempts_of_search hfind
  exact ⟨hflags, hlog, hin, hout, hblock, hcand, htoNat.le.trans hle⟩

/-- A pair found is written with its `q` a candidate that met the constraint (R26, R156). -/
theorem State.Inv.writeCandidate {bound q p count : Nat} {pt pt' : RngPort} (h : s.Inv)
    (hfind : safePrimeFind bound pt = (.found q p count, pt')) : { s with q := BitVec.ofNat 32 q }.Inv := by
  obtain ⟨hflags, hlog, hin, hout, hblock, -, hatt⟩ := h
  obtain ⟨hlow, hhigh, hmod⟩ := safePrimeFind_candidate hfind
  have hq : (BitVec.ofNat 32 q).toNat = q := by
    rw [BitVec.toNat_ofNat]
    omega
  exact ⟨hflags, hlog, hin, hout, hblock, .inr (hq.symm ▸ ⟨hlow, hhigh, hmod⟩), hatt⟩

/-- ENC writes a block into M and empties the input buffer (R191, R196). -/
theorem State.Inv.encCommit (h : s.Inv) : (encCommit s).Inv := by
  obtain ⟨hflags, hlog, -, hout, -, hcand, hatt⟩ := h
  exact State.Inv.complete ⟨hflags, hlog, State.inputOk_of_empty rfl rfl, hout, clearTop_lt _, hcand, hatt⟩

/-- DEC writes a block into M and fills the output buffer with it (R214). -/
theorem State.Inv.decCommit (h : s.Inv) :
    State.Inv { s with m := s.decrypted, obuf := s.decrypted, ocnt := 4#3 } := by
  obtain ⟨hflags, hlog, hin, -, -, hcand, hatt⟩ := h
  exact ⟨hflags, hlog, hin, State.outputOk_of_full rfl, clearTop_lt _, hcand, hatt⟩

/-- FLUSH empties both buffers (R231). -/
theorem State.Inv.flush (h : s.Inv) : State.Inv { s with ibuf := 0#32, icnt := 0#3, obuf := 0#32, ocnt := 0#3 } := by
  obtain ⟨hflags, hlog, -, -, hrest⟩ := h
  exact ⟨hflags, hlog, State.inputOk_of_empty rfl rfl, State.outputOk_of_empty rfl rfl, hrest⟩

theorem State.Inv.pushByte (h : s.Inv) (hroom : s.icnt ≠ 4#3) (x : Byte) : (s.pushByte x).Inv := by
  obtain ⟨hflags, hlog, hin, hrest⟩ := h
  exact ⟨hflags, hlog, State.InputOk.pushByte hin hroom x, hrest⟩

theorem State.Inv.popByte (h : s.Inv) (hfull : s.ocnt ≠ 0#3) : s.popByte.Inv := by
  obtain ⟨hflags, hlog, hin, hout, hrest⟩ := h
  exact ⟨hflags, hlog, hin, State.OutputOk.popByte hout hfull, hrest⟩

/-- Every instruction keeps the invariant, outcome by outcome. Where an outcome writes more registers than its rule above
names, the invariant does not speak of them. -/
theorem exec_keeps_inv : ∀ (i : Instr) (s t : State), exec i s = .next t → s.Inv → t.Inv :=
  exec_outcomes (fun _ s t => s.Inv → t.Inv)
    (modpowFails := fun _ h => h.raiseError _)
    (modpowEnds := fun _ _ h => State.Inv.complete h)
    (mrtestFails := fun _ h => h.raiseError _)
    (mrtestEnds := fun _ h => State.Inv.complete h)
    (spsearchFails := fun _ _ _ hfind h => (h.afterSearch hfind).raiseError _)
    (spsearchEnds := fun _ _ _ _ _ hfind h => State.Inv.complete ((h.afterSearch hfind).writeCandidate hfind))
    (keygenRefuses := fun _ h => h.raiseError _)
    (keygenExhausts := fun _ _ _ hfind h => (h.afterSearch hfind).raiseError _)
    (keygenFails := fun _ _ _ _ _ hfind h => State.Inv.raiseError (h.afterSearch hfind) _)
    (keygenEnds := fun _ _ _ _ _ hfind h => State.Inv.complete ((h.afterSearch hfind).writeCandidate hfind))
    (encRefuses := fun _ h => h.raiseError _)
    (encFails := fun _ h => h.raiseError _)
    (encEnds := fun _ h => h.encCommit)
    (decRefuses := fun _ h => h.raiseError _)
    (decFails := fun _ h => h.raiseError _)
    (decEnds := fun _ h => h.decCommit.complete)
    (srstEnds := fun s _ => s.resetCore_inv)
    (flushEnds := fun _ h => h.flush.complete)
    (rseedEnds := fun _ h => State.Inv.complete h)
    (pushRefuses := fun _ _ h => h.illegalAccess)
    (pushEnds := fun _ _ _ hroom h => h.pushByte hroom _)
    (popRefuses := fun _ h => h.illegalAccess)
    (popEnds := fun _ hfull h => h.popByte hfull)

/-- Settles O50: whatever host action the step takes up, its meaning keeps the invariant, which does not speak of the
list of host actions. -/
theorem everyStepKeepsTheCoreInvariant : Obligations.EveryStepKeepsTheCoreInvariant := by
  intro s t hinv hstep
  have hserved (rest : List HostAction) : State.Inv { s with host := rest } := hinv
  rcases step_cases s t hstep with ⟨-, rfl⟩ | ⟨rest, hreset | hseed | haccess⟩
  · exact hinv
  · obtain ⟨-, rfl⟩ := hreset
    exact State.resetCore_inv _
  · obtain ⟨v, -, rfl⟩ := hseed
    exact hinv
  · obtain ⟨x, -, hinstr | hread | hwrite | herror⟩ := haccess
    · obtain ⟨i, -, hexec⟩ := hinstr
      exact exec_keeps_inv i _ t hexec (hserved rest)
    · obtain ⟨loc, -, rfl⟩ := hread
      exact (hserved rest).serveRead loc
    · obtain ⟨loc, v, -, rfl⟩ := hwrite
      exact (hserved rest).serveWrite loc v
    · obtain ⟨why, -, rfl⟩ := herror
      exact (hserved rest).refuseAccess why

end Machine
end Sys2Proof
end

section
/-! PROOFS. What every instruction leaves as it was, and who writes the flags, the log, the registers and the
random-source port (R23, R29, R31, R32, R35, R49). -/

namespace Sys2Proof
namespace Machine

/-! ### The log, bit by bit (R32) -/

/-- Setting the bit of an error sets the bit its code numbers, and no other. -/
theorem getLsbD_logSet (log : Word) (k : ErrKind) (j : Nat) :
    (logSet log k).getLsbD j = (log.getLsbD j || decide (j = (errCode k).toNat)) := by
  have hbit : (logBit k).getLsbD j = decide (j = (errCode k).toNat) := by
    have hcode := (errCode_range k).2
    rw [logBit, ← BitVec.twoPow_eq, BitVec.getLsbD_twoPow]
    simp [eq_comm]
    omega
  rw [logSet, BitVec.getLsbD_or, hbit]

/-- Clearing by a word clears the bits set in it, and no other. -/
theorem getLsbD_logClear (log v : Word) {j : Nat} (hj : j < 32) :
    (logClear log v).getLsbD j = (log.getLsbD j && !v.getLsbD j) := by
  simp [logClear, hj]

/-- Settles O42: without a reserved bit the access is decoded to the clearing write, with one it is refused. -/
theorem faultlogWriteClearsBits : Obligations.FaultlogWriteClearsBits := by
  intro s v rest hhost
  have hdecode := decode_write_faultlog v
  rw [step_access s _ rest hhost]
  constructor
  · intro hlegal
    rw [if_pos hlegal] at hdecode
    exact ⟨_, serveAccess_of_writeReg _ hdecode, rfl, fun i hi => getLsbD_logClear s.faultlog v hi⟩
  · intro hreserved
    rw [if_neg hreserved] at hdecode
    exact serveAccess_of_error _ hdecode

/-- An instruction other than SRST leaves the log alone, or sets the bit of one error in it. -/
theorem exec_faultlog : ∀ (i : Instr) (s t : State), exec i s = .next t → i ≠ .srst →
    t.faultlog = s.faultlog ∨ ∃ k, t.faultlog = logSet s.faultlog k := by
  apply exec_outcomes
  case srstEnds => exact fun _ h => absurd rfl h
  case modpowFails | mrtestFails | spsearchFails | keygenRefuses | keygenExhausts | keygenFails | encRefuses | encFails
      | decRefuses | decFails | pushRefuses | popRefuses =>
    intros
    exact .inr ⟨_, rfl⟩
  all_goals
    intros
    exact .inl rfl

/-- Settles O46: an instruction sets at most the bit of one error, and codes are 1 to 4. -/
theorem faultlogIsSticky : Obligations.FaultlogIsSticky := by
  intro i s t hexec hsrst j _
  rcases exec_faultlog i s t hexec hsrst with e | ⟨k, e⟩ <;> rw [e]
  · exact ⟨id, .inl⟩
  · rw [getLsbD_logSet, Bool.or_eq_true, decide_eq_true_eq]
    exact ⟨.inl, Or.imp_right fun hj => hj ▸ errCode_range k⟩

/-! ### The frame of every instruction (R23, R29, R49) -/

/-- Settles O45: no outcome but that of SRST writes an operand register. -/
theorem operandRegistersAreNeverWrittenByCommands : Obligations.OperandRegistersAreNeverWrittenByCommands := by
  unfold Obligations.OperandRegistersAreNeverWrittenByCommands
  apply exec_outcomes
  case srstEnds => exact fun _ h => absurd rfl h
  all_goals
    intros
    exact ⟨rfl, rfl, rfl, rfl⟩

/-- Settles O47: the registers each outcome writes, read off outcome by outcome. -/
theorem accessMatrixIsKept : Obligations.AccessMatrixIsKept := by
  unfold Obligations.AccessMatrixIsKept
  apply exec_outcomes
  case srstEnds => exact fun _ h => absurd rfl h
  all_goals
    intros
    simp [encCommit]

end Machine
end Sys2Proof
end

section
/-! PROOFS. The flags: who writes them and that no command reads them (R31). -/

namespace Sys2Proof
namespace Machine

/-! ### Which accesses reach a command (R64, R91) -/

/-- A decoded access starts no command: neither one of the nine, nor one that ends at once by IllegalRequest (R91). -/
def StartsNoCommand : Except DecodeError Request → Prop
  | .ok (.instr i) => isCommand i = false
  | .ok (.readReg _) => True
  | .ok (.writeReg _ _) => True
  | .error why => why ≠ .commandReservedBits ∧ why ≠ .commandUnassigned

theorem decodeRead_startsNoCommand (loc : Reg) : StartsNoCommand (decodeRead loc) := by
  cases loc <;> simp [decodeRead, StartsNoCommand, isCommand]

/-- A write of another location than CMD starts no command. -/
theorem decodeWrite_startsNoCommand {loc : Reg} (hloc : loc ≠ .cmd) (v : Word) :
    StartsNoCommand (decodeWrite v loc) := by
  cases loc
  case cmd => exact absurd rfl hloc
  case bin | faultlog =>
    simp only [decodeWrite]
    split <;> simp [StartsNoCommand, isCommand]
  all_goals simp [decodeWrite, StartsNoCommand]

/-- A location is reached by a word access at its offset (R21, R62); an access that reaches none starts no command
(R64 (a), (b)). -/
theorem decodeLocation_cases (size addr : Nat) :
    (∃ loc, size = 4 ∧ addr = loc.offset ∧ decodeLocation size addr = .ok loc)
      ∨ ∃ why, StartsNoCommand (.error why) ∧ decodeLocation size addr = .error why := by
  unfold decodeLocation
  split
  · exact .inr ⟨_, ⟨by decide, by decide⟩, rfl⟩
  · split
    · exact .inr ⟨_, ⟨by decide, by decide⟩, rfl⟩
    · split
      · exact .inr ⟨_, ⟨by decide, by decide⟩, rfl⟩
      · split
        · exact .inl ⟨_, not_not.mp ‹_›, offset_of_atOffset _ _ ‹_›, rfl⟩
        · exact .inr ⟨_, ⟨by decide, by decide⟩, rfl⟩

/-- Only a word write of CMD starts a command. -/
theorem decode_startsNoCommand {x : Access} (hx : ∀ v, x ≠ .write 4 0x00 v) : StartsNoCommand (decode x) := by
  cases x with
  | read size addr =>
    rcases decodeLocation_cases size addr with ⟨loc, -, -, e⟩ | ⟨why, hwhy, e⟩ <;> simp only [decode, e]
    · exact decodeRead_startsNoCommand loc
    · exact hwhy
  | write size addr v =>
    rcases decodeLocation_cases size addr with ⟨loc, hsize, haddr, e⟩ | ⟨why, hwhy, e⟩ <;> simp only [decode, e]
    · refine decodeWrite_startsNoCommand ?_ v
      rintro rfl
      subst hsize haddr
      exact hx v rfl
    · exact hwhy

/-! ### An access that starts no command leaves the flags (R31) -/

/-- DONE, ERR and ERRCODE are as they were. -/
def State.SameFlags (s t : State) : Prop := t.done = s.done ∧ t.err = s.err ∧ t.errcode = s.errcode

theorem State.sameFlags_illegalAccess (s : State) : s.SameFlags s.illegalAccess := ⟨rfl, rfl, rfl⟩

theorem serveRead_sameFlags (loc : Reg) (s : State) : s.SameFlags (serveRead loc s) := by
  rcases serveRead_cases loc s with ⟨v, -, e⟩ | ⟨-, e⟩ <;> rw [e] <;> exact ⟨rfl, rfl, rfl⟩

theorem serveWrite_sameFlags (loc : Reg) (v : Word) (s : State) : s.SameFlags (serveWrite loc v s) := by
  rcases serveWrite_cases loc v s with ⟨t, hw, e⟩ | ⟨-, e⟩ <;> rw [e]
  · cases loc <;> cases hw <;> exact ⟨rfl, rfl, rfl⟩
  · exact s.sameFlags_illegalAccess

/-- PUSH and POP write no flag. -/
theorem exec_sameFlags : ∀ (i : Instr) (s t : State), exec i s = .next t → isCommand i = false → s.SameFlags t := by
  apply exec_outcomes
  case pushRefuses | pushEnds | popRefuses | popEnds =>
    intros
    exact ⟨rfl, rfl, rfl⟩
  all_goals
    intros
    contradiction

/-- A refusal that is no command error is an illegal access (R64). -/
theorem refuseAccess_sameFlags (s : State) {why : DecodeError} (h : StartsNoCommand (.error why)) :
    s.SameFlags (refuseAccess s why) := by
  obtain ⟨hreserved, hunassigned⟩ := h
  cases why
  case commandReservedBits => exact absurd rfl hreserved
  case commandUnassigned => exact absurd rfl hunassigned
  all_goals exact s.sameFlags_illegalAccess

theorem serveAccess_sameFlags {x : Access} {s t : State} (hx : StartsNoCommand (decode x))
    (h : serveAccess x s = .next t) : s.SameFlags t := by
  cases hd : decode x with
  | error why =>
    cases (serveAccess_of_error s hd).symm.trans h
    exact refuseAccess_sameFlags s (hd ▸ hx)
  | ok request =>
    cases request with
    | instr i => exact exec_sameFlags i s t ((serveAccess_of_instr s hd).symm.trans h) (by rw [hd] at hx; exact hx)
    | readReg loc =>
      cases (serveAccess_of_readReg s hd).symm.trans h
      exact serveRead_sameFlags loc s
    | writeReg loc v =>
      cases (serveAccess_of_writeReg s hd).symm.trans h
      exact serveWrite_sameFlags loc v s

/-! ### The flags at the end of a command (R31) -/

/-- A command ends with the flags of success, or with those of its error. -/
theorem command_flags {i : Instr} {s t : State} (h : exec i s = .next t) (hc : isCommand i = true) (hr : i ≠ .srst) :
    t.done = true
      ∧ ((t.err = false ∧ t.errcode = 0#4)
        ∨ (t.err = true ∧ 1 ≤ t.errcode.toNat ∧ t.errcode.toNat ≤ 4 ∧ t.faultlog.getLsbD t.errcode.toNat = true)) := by
  rcases command_cases i s t h hc hr with ⟨s1, rfl⟩ | ⟨k, a, pt, rfl⟩
  · exact ⟨rfl, .inl ⟨rfl, rfl⟩⟩
  · obtain ⟨hlow, hhigh⟩ := errCode_range k
    exact ⟨rfl, .inr ⟨rfl, hlow, hhigh, by simp [getLsbD_logSet]⟩⟩

/-- No command reads the flags: each of its ends writes all three, and no condition of it names them. -/
theorem exec_command_flags_irrelevant {i : Instr} (hc : isCommand i = true) (s : State) (x y : Bool) (c : BitVec 4) :
    exec i { s with done := x, err := y, errcode := c } = exec i s := by
  cases i with
  | push v => contradiction
  | pop => contradiction
  | _ => rfl

/-- Settles O43: a command ends with its own flags and reads none; an access that starts no command writes none. -/
theorem commandsWriteTheFlags : Obligations.CommandsWriteTheFlags := by
  refine ⟨fun _ _ _ => command_flags, ?_, ?_, ?_⟩
  · rintro s t ⟨⟩
    exact ⟨rfl, rfl, rfl⟩
  · intro s t x rest hhost hx hstep
    rw [step_access s x rest hhost] at hstep
    exact (serveAccess_sameFlags (decode_startsNoCommand hx) hstep : State.SameFlags { s with host := rest } t)
  · intro i s t t' x y c hc h h'
    rw [exec_command_flags_irrelevant hc, h] at h'
    cases h'
    rfl

end Machine
end Sys2Proof
end

section
/-! PROOFS. How DRAWCNT counts (R35, R116, R155, R171, R179): the draws of each command, as the port it leaves. -/

namespace Sys2Proof
namespace Machine

/-- MRTEST takes at most ten draws; none exactly when it fails, as its check comes before the first (R111, R116). -/
theorem mrtestState_draws {s t : State} (ht : t = mrtestState s) :
    ∃ k, k ≤ 10 ∧ t.port = s.port.afterDraws k ∧ (t.err = true → k = 0) ∧ (t.err = false → 1 ≤ k) := by
  rcases mrtestState_cases s with ⟨-, e⟩ | ⟨-, -, e⟩ <;> rw [ht, e]
  · exact ⟨0, by omega, (afterDraws_zero s.port).symm, by simp, by simp⟩
  · obtain ⟨i, hpos, hle, hport⟩ := mr_draws s.n.toNat s.port
    exact ⟨i, hle, hport, by simp, fun _ => hpos⟩

/-- A search with MAX_ATTEMPTS takes one to twenty-one draws for each attempt that ATTEMPTS counts (R155). -/
theorem search_draws {res : SearchResult} {pt pt' : RngPort} (h : safePrimeFind Config.maxAttempts pt = (res, pt')) :
    ∃ k, pt' = pt.afterDraws k ∧ (BitVec.ofNat 32 res.attempts).toNat ≤ k
      ∧ k ≤ 21 * (BitVec.ofNat 32 res.attempts).toNat := by
  obtain ⟨k, -, hlow, hhigh, hport⟩ := safePrimeFind_draws Config.maxAttempts pt
  obtain ⟨-, htoNat⟩ := attempts_of_search h
  rw [h] at hlow hhigh hport
  exact ⟨k, hport, htoNat.symm ▸ hlow, htoNat.symm ▸ hhigh⟩

/-- SPSEARCH takes the draws of its search, found or exhausted (R152, R155). -/
theorem spsearchState_draws {s t : State} (ht : t = spsearchState Config.maxAttempts s) :
    ∃ k, t.port = s.port.afterDraws k ∧ t.attempts.toNat ≤ k ∧ k ≤ 21 * t.attempts.toNat := by
  rcases spsearchState_cases Config.maxAttempts s with ⟨n, pt, hfind, e⟩ | ⟨q, p, n, pt, hfind, e⟩ <;> rw [ht, e]
  · exact search_draws hfind
  · exact search_draws hfind

/-- ENC takes one draw after its checks, and none if one of them fails (R191, R193). -/
theorem encState_draws (s : State) : (encState s).port = s.port.afterDraws (if (encState s).err then 0 else 1) := by
  rcases encState_cases s with ⟨-, e⟩ | ⟨-, -, e⟩ | ⟨-, -, -, e⟩ <;> rw [e]
  · exact (afterDraws_zero s.port).symm
  · exact (afterDraws_zero s.port).symm
  · rfl

/-- The end of KEYGEN takes the draw for `d` and is no exhausted search, whether or not it fails (R173, R174). -/
theorem keygenCommit_draws (q p : Nat) (s : State) :
    (keygenCommit q p s).port = s.port.afterDraws 1 ∧ (keygenCommit q p s).attempts = s.attempts
      ∧ (keygenCommit q p s).errcode ≠ 2#4 := by
  rcases keygenCommit_cases q p s with ⟨-, e⟩ | ⟨-, e⟩ <;> rw [e]
  · exact ⟨rfl, rfl, by simp [errCode]⟩
  · exact ⟨rfl, rfl, by simp⟩

/-- A KEYGEN whose seed is out of range neither seeds nor draws (R171). -/
theorem keygenState_port_of_invalidSeed {s : State} (hseed : 10000 < s.seed.toNat) (bound : Nat) :
    (keygenState bound s).port = s.port := by
  rcases keygenState_cases bound s with ⟨-, e⟩ | ⟨_, _, hle, -⟩ | ⟨_, _, _, _, hle, -⟩
  · rw [e]
    rfl
  · omega
  · omega

/-- A KEYGEN with a legal seed takes, from the seeded port, the draws of its search, and then one more unless the search
was exhausted (R171, R173, R179). -/
theorem keygenState_draws {s t : State} (ht : t = keygenState Config.maxAttempts s) (hseed : s.seed.toNat ≤ 10000) :
    ∃ k, (safePrimeFind Config.maxAttempts (s.port.rngSeed s.seed)).2 = (s.port.rngSeed s.seed).afterDraws k
      ∧ t.attempts.toNat ≤ k ∧ k ≤ 21 * t.attempts.toNat
      ∧ t.port = (s.port.rngSeed s.seed).afterDraws (if t.errcode = 2#4 then k else k + 1)
      ∧ (t.err = false → t.errcode ≠ 2#4) := by
  rcases keygenState_cases Config.maxAttempts s with ⟨hlt, -⟩ | ⟨n, pt, -, hfind, e⟩ | ⟨q, p, n, pt, -, hfind, e⟩
  · omega
  · obtain ⟨k, hport, hlow, hhigh⟩ := search_draws hfind
    rw [ht, e, hfind]
    exact ⟨k, hport, hlow, hhigh, hport, by simp⟩
  · obtain ⟨k, hport, hlow, hhigh⟩ := search_draws hfind
    obtain ⟨hlast, hattempts, hcode⟩ := keygenCommit_draws q p (s.afterSearch n pt)
    rw [ht, e, hfind, hattempts]
    refine ⟨k, hport, hlow, hhigh, ?_, fun _ => hcode⟩
    rw [if_neg hcode, hlast, State.afterSearch_port, hport, afterDraws_afterDraws]

/-- Settles O48: the draws of each command, with DRAWCNT read off the port it leaves. -/
theorem drawcntCountsDraws : Obligations.DrawcntCountsDraws := by
  refine ⟨?_, ?_, ?_, ?_, ?_, ?_⟩
  · rintro s t ⟨⟩
    exact mrtestState_draws rfl
  · rintro s t ⟨⟩
    exact spsearchState_draws rfl
  · rintro s t ⟨⟩
    exact encState_draws s
  · rintro s t ⟨⟩
    rfl
  · rintro s t ⟨⟩ hseed
    exact keygenState_port_of_invalidSeed hseed _
  · rintro s t ⟨⟩ hseed
    obtain ⟨k, hfind, hlow, hhigh, hport, hcode⟩ := keygenState_draws rfl hseed
    refine ⟨k, hfind, hlow, hhigh, hport, ?_, fun herr => ?_⟩
    · rw [hport, rngSeed_afterDraws_drawcnt]
    · rw [hport, if_neg (hcode herr)]

end Machine
end Sys2Proof
end

section
/-! PROOFS. The random-source port after a seeding (R71, R72) and the illegal accesses (R64): which requests of the decoder
are refused, and that these are the requests of the accesses R64 lists. -/

namespace Sys2Proof
namespace Machine

/-! ### The draws after a seeding (R71, R72) -/

/-- A seeding forgets what the source was seeded with before and how far it had come; only its fixed streams stay. -/
theorem rngSeed_eq_of_streams {t1 t2 : RngPort} (h : t1.rng.streams = t2.rng.streams) (v : Word) :
    t1.rngSeed v = t2.rngSeed v := by
  simp [RngPort.rngSeed, Rng.reseed, h]

/-- A draw after `k` draws takes the value `k` ahead, and makes them `k + 1` (R72). -/
theorem draw_afterDraws (t : RngPort) (k : Nat) : (t.afterDraws k).draw = (t.ahead k, t.afterDraws (k + 1)) := by
  rw [draw_eq, ahead_afterDraws, afterDraws_afterDraws, Nat.add_zero]

/-- Settles O23: ports over one source are the same port once seeded alike, and each draw is one step of the stream. -/
theorem drawsAfterSeedingDependOnSeedOnly : Obligations.DrawsAfterSeedingDependOnSeedOnly := by
  refine ⟨fun t1 t2 v hstreams => ⟨t1.rngSeed_drawcnt v, fun k => ?_⟩, draw_afterDraws⟩
  rw [rngSeed_eq_of_streams hstreams]

/-! ### Which decoded accesses are refused (R64, R91, R190, R215) -/

/-- A decoded access is refused: a PUSH or a POP its buffer does not take (R64 (f) to (h)), a plain access the location does
not take, or an error that is no command error (R91). -/
def State.Refuses (s : State) : Except DecodeError Request → Prop
  | .ok (.instr (.push v)) => 256 ≤ v.toNat ∨ s.icnt = 4#3
  | .ok (.instr .pop) => s.ocnt = 0#3
  | .ok (.instr _) => False
  | .ok (.readReg loc) => s.readReg loc = none
  | .ok (.writeReg loc v) => s.writeReg v loc = none
  | .error why => StartsNoCommand (.error why)

@[simp] theorem State.refuses_push (s : State) (v : Word) :
    s.Refuses (.ok (.instr (.push v))) ↔ 256 ≤ v.toNat ∨ s.icnt = 4#3 := Iff.rfl
@[simp] theorem State.refuses_pop (s : State) : s.Refuses (.ok (.instr .pop)) ↔ s.ocnt = 0#3 := Iff.rfl
@[simp] theorem State.refuses_readReg (s : State) (loc : Reg) :
    s.Refuses (.ok (.readReg loc)) ↔ s.readReg loc = none := Iff.rfl
@[simp] theorem State.refuses_writeReg (s : State) (loc : Reg) (v : Word) :
    s.Refuses (.ok (.writeReg loc v)) ↔ s.writeReg v loc = none := Iff.rfl
@[simp] theorem State.refuses_error (s : State) (why : DecodeError) :
    s.Refuses (.error why) ↔ why ≠ .commandReservedBits ∧ why ≠ .commandUnassigned := Iff.rfl

/-- No command is refused (R61). -/
theorem State.not_refuses_command (s : State) {i : Instr} (hc : isCommand i = true) :
    ¬ s.Refuses (.ok (.instr i)) := by
  cases i with
  | push v => contradiction
  | pop => contradiction
  | _ => exact id

/-- The response is OKAY, with or without data (R61). -/
def State.AnswersOkay (t : State) : Prop := t.resp ≠ some .slverr ∧ t.resp ≠ none

theorem State.answersOkay_answerRead (s : State) (v : Word) : (s.answerRead v).AnswersOkay := by
  simp [State.AnswersOkay]

theorem State.answersOkay_of_okayWrite {t : State} (h : t.resp = some .okayWrite) : t.AnswersOkay := by
  simp [State.AnswersOkay, h]

/-- Every command answers OKAY, also one that ends by an error (R61, R245). -/
theorem command_resp {i : Instr} {s t : State} (h : exec i s = .next t) (hc : isCommand i = true) :
    t.resp = some .okayWrite := by
  by_cases hr : i = .srst
  · subst hr
    cases h
    rfl
  · rcases command_cases i s t h hc hr with ⟨_, rfl⟩ | ⟨_, _, _, rfl⟩ <;> rfl

/-! ### A refused access has the effect of R64 and no other -/

theorem exec_of_refuses {i : Instr} {s : State} (h : s.Refuses (.ok (.instr i))) :
    exec i s = .next s.illegalAccess := by
  cases i with
  | push v =>
    rcases pushState_cases v s with ⟨-, e⟩ | ⟨hbyte, hroom, -⟩
    · exact congrArg _ e
    · exact (h.elim hbyte.not_ge hroom).elim
  | pop =>
    rcases popState_cases s with ⟨-, e⟩ | ⟨hbytes, -⟩
    · exact congrArg _ e
    · exact absurd h hbytes
  | _ => exact h.elim

theorem refuseAccess_of_startsNoCommand {why : DecodeError} (h : StartsNoCommand (.error why)) (s : State) :
    refuseAccess s why = s.illegalAccess := by
  obtain ⟨hreserved, hunassigned⟩ := h
  cases why
  case commandReservedBits => exact absurd rfl hreserved
  case commandUnassigned => exact absurd rfl hunassigned
  all_goals rfl

theorem serveAccess_of_refuses {x : Access} {s : State} (h : s.Refuses (decode x)) :
    serveAccess x s = .next s.illegalAccess := by
  cases hd : decode x with
  | error why =>
    rw [hd] at h
    rw [serveAccess_of_error s hd, refuseAccess_of_startsNoCommand h]
  | ok request =>
    rw [hd] at h
    cases request with
    | instr i => rw [serveAccess_of_instr s hd, exec_of_refuses h]
    | readReg loc =>
      have hnone : s.readReg loc = none := h
      rw [serveAccess_of_readReg s hd, serveRead, hnone]
    | writeReg loc v =>
      have hnone : s.writeReg v loc = none := h
      rw [serveAccess_of_writeReg s hd, serveWrite, hnone]

/-! ### Every other access answers OKAY (R61) -/

theorem exec_answersOkay {i : Instr} {s t : State} (h : exec i s = .next t) (hr : ¬ s.Refuses (.ok (.instr i))) :
    t.AnswersOkay := by
  cases hc : isCommand i with
  | true => exact State.answersOkay_of_okayWrite (command_resp h hc)
  | false =>
    cases i with
    | push v =>
      cases h
      rcases pushState_cases v s with ⟨hbad, -⟩ | ⟨-, -, e⟩
      · exact absurd hbad hr
      · exact State.answersOkay_of_okayWrite (e ▸ rfl)
    | pop =>
      cases h
      rcases popState_cases s with ⟨hempty, -⟩ | ⟨-, e⟩
      · exact absurd hempty hr
      · exact e ▸ State.answersOkay_answerRead _ _
    | _ => contradiction

/-- A refusal that starts a command is a command error (R91, R245). -/
theorem refuseAccess_answersOkay {why : DecodeError} (h : ¬ StartsNoCommand (.error why)) (s : State) :
    (refuseAccess s why).AnswersOkay := by
  cases why
  case commandReservedBits | commandUnassigned => exact State.answersOkay_of_okayWrite rfl
  all_goals exact absurd ⟨by decide, by decide⟩ h

theorem serveAccess_answersOkay {x : Access} {s t : State} (h : serveAccess x s = .next t)
    (hr : ¬ s.Refuses (decode x)) : t.AnswersOkay := by
  cases hd : decode x with
  | error why =>
    rw [hd] at hr
    cases (serveAccess_of_error s hd).symm.trans h
    exact refuseAccess_answersOkay hr s
  | ok request =>
    rw [hd] at hr
    cases request with
    | instr i => exact exec_answersOkay ((serveAccess_of_instr s hd).symm.trans h) hr
    | readReg loc =>
      cases (serveAccess_of_readReg s hd).symm.trans h
      rcases serveRead_cases loc s with ⟨v, -, e⟩ | ⟨hnone, -⟩
      · exact e ▸ State.answersOkay_answerRead s v
      · exact absurd hnone hr
    | writeReg loc v =>
      cases (serveAccess_of_writeReg s hd).symm.trans h
      rcases serveWrite_cases loc v s with ⟨_, -, e⟩ | ⟨hnone, -⟩
      · exact State.answersOkay_of_okayWrite (e ▸ rfl)
      · exact absurd hnone hr

/-! ### The refused accesses are those R64 lists -/

/-- Below 0x54 every word offset has a location (R21). -/
theorem atOffset_isSome : ∀ addr < 0x54, addr % 4 = 0 → (Reg.atOffset addr).isSome := by decide

/-- An access that reaches no location is ill-formed or at a reserved offset (R64 (a), (b)). -/
theorem illFormed_of_decodeLocation_error {size addr : Nat} {why : DecodeError}
    (h : decodeLocation size addr = .error why) :
    size ≠ 4 ∨ addr % 4 ≠ 0 ∨ 0x100 ≤ addr ∨ 0x54 ≤ addr := by
  by_contra hlegal
  obtain ⟨hsize, halign, hwindow, hreserved⟩ : size = 4 ∧ addr % 4 = 0 ∧ ¬ 0x100 ≤ addr ∧ addr < 0x54 := by omega
  obtain ⟨loc, hloc⟩ := Option.isSome_iff_exists.mp (atOffset_isSome addr hreserved halign)
  simp [decodeLocation, hsize, halign, hwindow, hloc] at h

/-- A word read of a location is listed in R64 exactly if what it asks for is refused (R64 (c), (h)). -/
theorem isIllegal_read_iff (s : State) (loc : Reg) :
    s.IsIllegal (.read 4 loc.offset) ↔ s.Refuses (decodeRead loc) := by
  cases loc <;> simp [State.IsIllegal, Reg.offset, decodeRead, State.readReg]

/-- A word written to CMD is never refused: it starts a command, or ends as one by a command error (R91). -/
theorem not_refuses_decodeCommand (s : State) (w : Word) : ¬ s.Refuses (decodeCommand w) := by
  rcases decodeCommand_cases w with ⟨i, hi, e⟩ | e | e <;> rw [e]
  · exact s.not_refuses_command hi
  · simp
  · simp

/-- A word write of a location is listed in R64 exactly if what it asks for is refused (R64 (d) to (g)). -/
theorem isIllegal_write_iff (s : State) (loc : Reg) (v : Word) :
    s.IsIllegal (.write 4 loc.offset v) ↔ s.Refuses (decodeWrite v loc) := by
  cases loc
  case cmd => simp [State.IsIllegal, Reg.offset, decodeWrite, not_refuses_decodeCommand]
  case bin =>
    by_cases hbyte : v.toNat < 256
    · simp [State.IsIllegal, Reg.offset, decodeWrite, shiftRight_eight_eq_zero, hbyte]
    · simp [State.IsIllegal, Reg.offset, decodeWrite, shiftRight_eight_eq_zero, hbyte, Nat.le_of_not_lt hbyte]
  case faultlog =>
    have hmask : ~~~logMask = 0xFFFFFFE1#32 := by decide
    by_cases hlegal : v &&& 0xFFFFFFE1#32 = 0#32 <;>
      simp [State.IsIllegal, Reg.offset, decodeWrite, hmask, hlegal, State.writeReg]
  all_goals simp [State.IsIllegal, Reg.offset, decodeWrite, State.writeReg]

/-- R64 lists exactly the accesses whose request is refused. -/
theorem isIllegal_iff_refuses (s : State) (x : Access) : s.IsIllegal x ↔ s.Refuses (decode x) := by
  cases x with
  | read size addr =>
    rcases decodeLocation_cases size addr with ⟨loc, rfl, rfl, e⟩ | ⟨why, hwhy, e⟩ <;> simp only [decode, e]
    · exact isIllegal_read_iff s loc
    · have hbad := illFormed_of_decodeLocation_error e
      exact iff_of_true (by simp only [State.IsIllegal]; omega) hwhy
  | write size addr v =>
    rcases decodeLocation_cases size addr with ⟨loc, rfl, rfl, e⟩ | ⟨why, hwhy, e⟩ <;> simp only [decode, e]
    · exact isIllegal_write_iff s loc v
    · have hbad := illFormed_of_decodeLocation_error e
      exact iff_of_true (by simp only [State.IsIllegal]; omega) hwhy

/-- What is illegal depends on the buffers, not on what the host will do next. -/
theorem isIllegal_host (s : State) (rest : List HostAction) (x : Access) :
    State.IsIllegal { s with host := rest } x ↔ s.IsIllegal x := by
  cases x <;> rfl

/-- Settles O39: the listed accesses are those whose request is refused; a refused request has the one effect of R64, and
every other is answered with OKAY. -/
theorem illegalAccessesAreExactlyTheListed : Obligations.IllegalAccessesAreExactlyTheListed := by
  intro s x rest hhost
  rw [step_access s x rest hhost, ← isIllegal_host s rest, isIllegal_iff_refuses]
  refine ⟨serveAccess_of_refuses, fun hlegal => ?_⟩
  obtain ⟨t, ht⟩ := serveAccess_next x { s with host := rest }
  exact ⟨t, ht, serveAccess_answersOkay ht hlegal⟩

end Machine
end Sys2Proof
end

section
/-! PROOFS. The encoding (R91 to R96): the decoder and the encoder agree in both directions, and a CMD word that is none of
the nine ends by IllegalRequest. -/

namespace Sys2Proof
namespace Machine

/-! ### What encodes an instruction is decoded to it (R92, R96) -/

theorem decode_encode {i : Instr} (h : i.wellFormed = true) : decode (encode i) = .ok (.instr i) := by
  cases i with
  | push v =>
    have hbyte : v >>> 8 = 0#32 := of_decide_eq_true h
    exact (decode_write_bin v).trans (if_pos hbyte)
  | _ => rfl

/-- Settles O35: each of the eleven accesses is the encoding of its instruction. -/
theorem opcodeMapDecodes : Obligations.OpcodeMapDecodes :=
  ⟨decode_encode (i := .modpow) rfl, decode_encode (i := .mrtest) rfl, decode_encode (i := .spsearch) rfl,
    decode_encode (i := .keygen) rfl, decode_encode (i := .enc) rfl, decode_encode (i := .dec) rfl,
    decode_encode (i := .srst) rfl, decode_encode (i := .flush) rfl, decode_encode (i := .rseed) rfl,
    decode_encode (i := .push 0xA5#32) rfl, decode_encode (i := .pop) rfl⟩

/-! ### No other access is decoded to an instruction (R21, R62, R91, R96) -/

/-- The access selects the instruction, and the encoding admits its operand. -/
def Encodes (x : Access) (i : Instr) : Prop := x = encode i ∧ i.wellFormed = true

/-- The opcode map and the encoder give each command the same word (R92). -/
theorem encodes_of_mem_opcodeMap :
    ∀ row ∈ opcodeMap, Encodes (.write 4 Reg.cmd.offset (BitVec.ofNat 32 row.1)) row.2 := by
  simp [opcodeMap, Encodes, encode, Reg.offset, Instr.wellFormed]

/-- A command word is its row's OPCODE with RSVD zero (R91). -/
theorem encodes_of_decodeCommand {w : Word} {i : Instr} (h : decodeCommand w = .ok (.instr i)) :
    Encodes (.write 4 Reg.cmd.offset w) i := by
  unfold decodeCommand at h
  split_ifs at h with hbyte
  split at h
  case h_1 j hrow =>
    cases h
    obtain ⟨before, after, hmap, -⟩ := List.lookup_eq_some_iff.mp hrow
    have hword : BitVec.ofNat 32 (w.toNat % 256) = w := by
      rw [not_not, shiftRight_eight_eq_zero] at hbyte
      rw [Nat.mod_eq_of_lt hbyte, BitVec.ofNat_toNat, BitVec.setWidth_eq]
    exact hword ▸ encodes_of_mem_opcodeMap (_, i) (by simp [hmap])
  case h_2 => cases h

/-- The one read that is an instruction is that of BOUT, POP (R96). -/
theorem encodes_of_decodeRead {loc : Reg} {i : Instr} (h : decodeRead loc = .ok (.instr i)) :
    Encodes (.read 4 loc.offset) i := by
  cases loc
  case bout =>
    cases h
    exact ⟨rfl, rfl⟩
  all_goals cases h

/-- A write that is an instruction is a command word in CMD or a byte in BIN (R91, R96). -/
theorem encodes_of_decodeWrite {loc : Reg} {v : Word} {i : Instr} (h : decodeWrite v loc = .ok (.instr i)) :
    Encodes (.write 4 loc.offset v) i := by
  cases loc
  case cmd => exact encodes_of_decodeCommand h
  case bin =>
    simp only [decodeWrite] at h
    split_ifs at h with hbyte
    cases h
    exact ⟨rfl, decide_eq_true hbyte⟩
  case faultlog =>
    simp only [decodeWrite] at h
    split_ifs at h
    cases h
  all_goals cases h

theorem encodes_of_decode {x : Access} {i : Instr} (h : decode x = .ok (.instr i)) : Encodes x i := by
  cases x with
  | read size addr =>
    rcases decodeLocation_cases size addr with ⟨loc, rfl, rfl, e⟩ | ⟨why, -, e⟩ <;> simp only [decode, e] at h
    · exact encodes_of_decodeRead h
    · cases h
  | write size addr v =>
    rcases decodeLocation_cases size addr with ⟨loc, rfl, rfl, e⟩ | ⟨why, -, e⟩ <;> simp only [decode, e] at h
    · exact encodes_of_decodeWrite h
    · cases h

/-- Settles O37: the encoding of a well-formed instruction is decoded to it, and an access that reaches an instruction
through its location is the encoding of that instruction. -/
theorem decodeInvertsEncode : Obligations.DecodeInvertsEncode :=
  ⟨fun _ => decode_encode, fun _ _ => encodes_of_decode⟩

/-! ### A CMD word is one of the nine, or an IllegalRequest (R91, R94) -/

/-- A decoder that compares the access with one more instruction serves it by one more comparison. -/
theorem serveAccess_of_ite {x : Access} {i : Instr} {c : Prop} [Decidable c] {others : Except DecodeError Request}
    {s : State} {served : Answer} (h : decode x = if c then .ok (.instr i) else others)
    (hothers : decode x = others → serveAccess x s = served) :
    serveAccess x s = if c then exec i s else served := by
  split_ifs at h ⊢
  · exact serveAccess_of_instr s h
  · exact hothers h

/-- A word with a reserved bit and one with an unassigned opcode both end by IllegalRequest, code 4. -/
theorem serveAccess_of_illegalCommand {x : Access} {reserved : Prop} [Decidable reserved] (s : State)
    (h : decode x = if reserved then .error .commandReservedBits else .error .commandUnassigned) :
    serveAccess x s = .next (s.fails 4#4) := by
  split_ifs at h
  · exact serveAccess_of_error s h
  · exact serveAccess_of_error s h

/-- Settles O36: the word is served by the comparisons that decode it, one for each of the nine. -/
theorem otherCommandWordsAreIllegal : Obligations.OtherCommandWordsAreIllegal := by
  intro s w rest hhost
  rw [step_access s _ rest hhost]
  have hdecode := (decode_write_cmd w).trans (decodeCommand_eq w)
  iterate 9 refine serveAccess_of_ite hdecode fun hdecode => ?_
  exact serveAccess_of_illegalCommand _ hdecode

end Machine
end Sys2Proof
end

section
/-! PROOFS. ModPow is the power modulo `n` (R132, R133), by the loop invariant of the scan: after its iterations have read
the bits of `b` from bit `m` up, the running value is `a ^ (b / 2 ^ m)` modulo `n`. -/

namespace Sys2Proof
namespace Machine

/-! ### One iteration (R133) -/

/-- An iteration squares, and multiplies by `a` exactly if its bit is 1. -/
theorem modPowStep_modEq (a n : Nat) (bit : Bool) (acc : Nat) :
    modPowStep a n bit acc ≡ acc ^ 2 * a ^ bit.toNat [MOD n] := by
  cases bit with
  | false => simpa [modPowStep, sq] using Nat.mod_modEq (acc * acc) n
  | true =>
    have hmul : acc * acc % n * a ≡ acc * acc * a [MOD n] := (Nat.mod_modEq _ n).mul_right a
    simpa [modPowStep, sq] using (Nat.mod_modEq _ n).trans hmul

/-- The bits of `b` from bit `m` up are twice those above bit `m`, and bit `m`. -/
theorem div_two_pow_eq_testBit (b m : Nat) : b / 2 ^ m = b / 2 ^ (m + 1) * 2 + (b.testBit m).toNat := by
  rw [Nat.toNat_testBit, pow_succ, ← Nat.div_div_eq_div_mul]
  omega

/-! ### The scan and its value (R132, R133) -/

/-- The loop invariant of the scan: `m` bits of the exponent are still to be read. -/
theorem modPowAcc_modEq (a n : Nat) {b : Nat} (hb : b < 2 ^ 32) {k m : Nat} (hkm : k + m = 32) :
    modPowAcc a b n k ≡ a ^ (b / 2 ^ m) [MOD n] := by
  induction k generalizing m with
  | zero =>
    obtain rfl : m = 32 := by omega
    rw [Nat.div_eq_of_lt hb, pow_zero]
    rfl
  | succ k ih =>
    have hbit : Config.xw - 1 - k = m := by simp only [Config.xw]; omega
    have hacc : modPowAcc a b n k ≡ a ^ (b / 2 ^ (m + 1)) [MOD n] := ih (by omega)
    rw [modPowAcc, hbit, div_two_pow_eq_testBit, pow_add, pow_mul]
    exact (modPowStep_modEq a n _ _).trans ((hacc.pow 2).mul_right _)

/-- `ModPow(a, b, n)` is in range, as its last iteration is (R132). -/
theorem modPow_lt (a b : Nat) {n : Nat} (hn : 0 < n) : modPow a b n < n :=
  modPowStep_lt a n _ _ hn

/-- `ModPow(a, b, n) = a^b mod n` for every 32-bit exponent, whatever the base (R132). -/
theorem modPow_eq_pow_mod (a : Nat) {b n : Nat} (hb : b < 2 ^ 32) (hn : 0 < n) : modPow a b n = a ^ b % n := by
  have hscan : modPowAcc a b n 32 ≡ a ^ (b / 2 ^ 0) [MOD n] := modPowAcc_modEq a n hb rfl
  rw [pow_zero, Nat.div_one] at hscan
  exact (Nat.mod_eq_of_lt (modPow_lt a b hn)).symm.trans hscan

end Machine
end Sys2Proof
end

section
/-! PROOFS. The primality oracle (R110 to R117): what Decompose answers, what a trial decides, how the trials of MR are run,
and for which `n` and draws all of them pass. -/

namespace Sys2Proof
namespace Machine

/-! ### Decompose (R112) -/

/-- The loop removes the factors 2 of `2^s * v`, `v` odd, if it has rounds enough, and counts them. -/
theorem decomposeFrom_two_pow_mul {k s v : Nat} (hv : v % 2 = 1) (hs : s ≤ k) (t : Nat) :
    decomposeFrom k (2 ^ s * v) t = (t + s, v) := by
  induction k generalizing s t with
  | zero =>
    obtain rfl : s = 0 := by omega
    simp [decomposeFrom]
  | succ k ih =>
    cases s with
    | zero => simp [decomposeFrom, hv]
    | succ s =>
      have heven : 2 ^ (s + 1) * v = 2 * (2 ^ s * v) := by ring
      rw [decomposeFrom, heven, if_pos (Nat.mul_mod_right 2 _), Nat.mul_div_cancel_left _ two_pos, ih (by omega)]
      simp only [Prod.mk.injEq, and_true]
      omega

/-- In `n - 1 = 2^t * u` with `n` of 32 bits, `t` is at most 31. -/
theorem lt_of_eq_two_pow_mul {n t u : Nat} (hn : 3 ≤ n) (hlt : n < 2 ^ 32) (h : n - 1 = 2 ^ t * u) : t < 32 := by
  have hdvd : 2 ^ t ∣ n - 1 := ⟨u, h⟩
  have hle : 2 ^ t ≤ n - 1 := Nat.le_of_dvd (by omega) hdvd
  exact (Nat.pow_lt_pow_iff_right one_lt_two).mp (by omega)

/-- A pair `(t, u)` with `n - 1 = 2^t * u` and `u` odd is Decompose's: there is no other. -/
theorem decompose_eq {n t u : Nat} (hn : 3 ≤ n) (hlt : n < 2 ^ 32) (h : n - 1 = 2 ^ t * u) (hu : u % 2 = 1) :
    decompose n = (t, u) := by
  rw [decompose, h, decomposeFrom_two_pow_mul hu (lt_of_eq_two_pow_mul hn hlt h).le, Nat.zero_add]

/-- Decompose answers such a pair for every `n` of 32 bits from 3 up, also an even one. -/
theorem decompose_spec {n : Nat} (hn : 3 ≤ n) (hlt : n < 2 ^ 32) :
    n - 1 = 2 ^ (decompose n).1 * (decompose n).2 ∧ (decompose n).2 % 2 = 1 := by
  obtain ⟨t, u, hodd, h⟩ := Nat.exists_eq_two_pow_mul_odd (n := n - 1) (by omega)
  rw [decompose_eq hn hlt h (Nat.odd_iff.mp hodd)]
  exact ⟨h, Nat.odd_iff.mp hodd⟩

/-- For an odd `n`, `n - 1` has a factor 2. -/
theorem one_le_decompose_fst {n : Nat} (hn : 3 ≤ n) (hodd : n % 2 = 1) (hlt : n < 2 ^ 32) : 1 ≤ (decompose n).1 := by
  obtain ⟨h, hu⟩ := decompose_spec hn hlt
  by_contra hzero
  rw [Nat.lt_one_iff.mp (Nat.lt_of_not_le hzero), pow_zero, one_mul] at h
  omega

/-- The odd part is a 32-bit exponent, as it divides `n - 1`. -/
theorem decompose_snd_lt {n : Nat} (hn : 3 ≤ n) (hlt : n < 2 ^ 32) : (decompose n).2 < 2 ^ 32 := by
  have hdvd : (decompose n).2 ∣ n - 1 := ⟨_, (decompose_spec hn hlt).1.trans (Nat.mul_comm _ _)⟩
  have hle : (decompose n).2 ≤ n - 1 := Nat.le_of_dvd (by omega) hdvd
  omega

/-- Settles O6: a pair with the property exists, and the loop reaches every such pair, so there is only one. -/
theorem decomposeIsUniquePair : Obligations.DecomposeIsUniquePair := by
  intro n hn hodd hlt
  obtain ⟨h, hu⟩ := decompose_spec hn hlt
  have ht : (decompose n).1 < 32 := lt_of_eq_two_pow_mul hn hlt h
  exact ⟨h, hu, one_le_decompose_fst hn hodd hlt, by omega, by omega,
    fun t u heq hodd' => (decompose_eq hn hlt heq hodd').symm⟩

/-! ### One trial (R113, R115) -/

/-- A power of the value a squaring leaves is the power with one squaring more. -/
theorem sq_mod_pow_two_pow (n x i : Nat) : (x * x % n) ^ 2 ^ i % n = x ^ 2 ^ (i + 1) % n := by
  rw [← Nat.pow_mod, ← sq, ← pow_mul, ← pow_succ']

/-- The squaring loop passes exactly if one of the squarings its budget allows is `n - 1`: nothing but 1 follows a 1. -/
theorem mrSquarings_iff {n : Nat} (hn : 3 ≤ n) (j x : Nat) :
    mrSquarings n j x = true ↔ ∃ i < j, x ^ 2 ^ (i + 1) % n = n - 1 := by
  induction j generalizing x with
  | zero => simp [mrSquarings]
  | succ j ih =>
    rw [Nat.exists_lt_succ_left, zero_add, pow_one, sq, mrSquarings]
    simp only [← sq_mod_pow_two_pow n x]
    split_ifs with hminus hone
    · simp [hminus]
    · have hstays : 1 % n = 1 := Nat.mod_eq_of_lt (by omega)
      have hne : 1 ≠ n - 1 := by omega
      simp [hone, hstays, hne]
    · rw [ih, or_iff_right hminus]

/-- A trial is that of a strong probable prime (R115). -/
theorem mrTrial_iff {n t u : Nat} (a : Nat) (hn : 3 ≤ n) (hu : u < 2 ^ 32) (ht : 1 ≤ t) :
    mrTrial n t u a = true ↔ a ^ u % n = 1 ∨ ∃ j < t, a ^ (u * 2 ^ j) % n = n - 1 := by
  obtain ⟨t, rfl⟩ := Nat.exists_eq_add_of_le' ht
  have hpow : ∀ j, (a ^ u % n) ^ 2 ^ j % n = a ^ (u * 2 ^ j) % n := fun j => by rw [← Nat.pow_mod, ← pow_mul]
  rw [mrTrial, modPow_eq_pow_mod a hu (by omega), Nat.exists_lt_succ_left, Nat.add_sub_cancel, pow_zero, mul_one]
  split_ifs with hfirst
  · simpa using hfirst.imp_right Or.inl
  · rw [mrSquarings_iff hn]
    simp only [hpow]
    tauto

/-- Settles O8: the budget of `t - 1` squarings, and before it the two values that pass at once. -/
theorem trialPassesIffStrongProbablePrime : Obligations.TrialPassesIffStrongProbablePrime :=
  fun _ _ _ a hn _ hu _ ht => mrTrial_iff a hn hu ht

/-! ### The trials of MR (R113, R114, R116) -/

/-- The trial with the base of the draw `j` draws from now (R113, R114). -/
def drawnTrial (n t u : Nat) (pt : RngPort) (j : Nat) : Bool := mrTrial n t u (mrBase n (pt.ahead j))

/-- After a draw, each trial to come is one nearer. -/
theorem drawnTrial_draw (n t u : Nat) (pt : RngPort) (j : Nat) :
    drawnTrial n t u pt.draw.2 j = drawnTrial n t u pt (j + 1) := by
  rw [drawnTrial, draw_eq, ahead_afterDraws, Nat.add_comm, drawnTrial]

/-- The trials run the one of the next draw, and the others from the port that draw leaves. -/
theorem mrTrials_succ_drawnTrial (n t u k : Nat) (pt : RngPort) :
    mrTrials n t u (k + 1) pt
      = if drawnTrial n t u pt 0 = true then mrTrials n t u k pt.draw.2 else (false, pt.afterDraws 1) :=
  mrTrials_succ n t u k pt

/-- If all trials pass, the answer is 1 and each has taken its draw. -/
theorem mrTrials_of_all_pass {n t u k : Nat} {pt : RngPort} (h : ∀ j < k, drawnTrial n t u pt j = true) :
    mrTrials n t u k pt = (true, pt.afterDraws k) := by
  induction k generalizing pt with
  | zero => rw [mrTrials, afterDraws_zero]
  | succ k ih =>
    have hrest : ∀ j < k, drawnTrial n t u pt.draw.2 j = true := fun j hj => by
      rw [drawnTrial_draw]
      exact h (j + 1) (by omega)
    rw [mrTrials_succ_drawnTrial, if_pos (h 0 k.succ_pos), ih hrest, draw_eq, afterDraws_afterDraws, Nat.add_comm]

/-- The first trial that fails ends them: the answer is 0, after its draw and those of the trials before it. -/
theorem mrTrials_of_first_failure {n t u k i : Nat} {pt : RngPort} (hik : i < k)
    (hbefore : ∀ j < i, drawnTrial n t u pt j = true) (hfails : drawnTrial n t u pt i = false) :
    mrTrials n t u k pt = (false, pt.afterDraws (i + 1)) := by
  induction i generalizing k pt with
  | zero =>
    obtain ⟨k, rfl⟩ := Nat.exists_eq_add_of_le' hik
    rw [mrTrials_succ_drawnTrial, if_neg (by simp [hfails])]
  | succ i ih =>
    obtain ⟨k, rfl⟩ := Nat.exists_eq_add_of_le' (Nat.one_le_of_lt hik)
    have hrest : ∀ j < i, drawnTrial n t u pt.draw.2 j = true := fun j hj => by
      rw [drawnTrial_draw]
      exact hbefore (j + 1) (by omega)
    rw [mrTrials_succ_drawnTrial, if_pos (hbefore 0 i.succ_pos),
      ih (by omega) hrest ((drawnTrial_draw ..).trans hfails), draw_eq, afterDraws_afterDraws, Nat.add_comm 1]

/-- All of the first `k` trials pass, or one of them is the first that fails. -/
theorem all_pass_or_first_failure (passes : Nat → Bool) (k : Nat) :
    (∀ j < k, passes j = true) ∨ ∃ i < k, (∀ j < i, passes j = true) ∧ passes i = false := by
  by_cases hall : ∀ j < k, passes j = true
  · exact .inl hall
  · have hsome : ∃ j, j < k ∧ passes j = false := by simpa using hall
    obtain ⟨hlt, hfails⟩ := Nat.find_spec hsome
    refine .inr ⟨_, hlt, fun j hj => ?_, hfails⟩
    have hnot := Nat.find_min hsome hj
    simpa [hj.trans hlt] using hnot

/-- Settles O7: the trials end after all ten or at the first that fails, and each started has taken one draw. -/
theorem mrDrawsOneBasePerTrialStarted : Obligations.MrDrawsOneBasePerTrialStarted := by
  intro n pt
  rcases all_pass_or_first_failure (drawnTrial n (decompose n).1 (decompose n).2 pt) 10 with
    hall | ⟨i, hi, hbefore, hfails⟩
  · exact .inl ⟨hall, mrTrials_of_all_pass hall⟩
  · exact .inr ⟨i + 1, by omega, hi, hbefore, hfails, mrTrials_of_first_failure hi hbefore hfails⟩

/-! ### A prime passes every trial (R117 (b)) -/

/-- Every base is a residue other than 0 (R114). -/
theorem mrBase_bounds {n : Nat} (hn : 3 ≤ n) (raw : Word) : 0 < mrBase n raw ∧ mrBase n raw < n := by
  have hlt : raw.toNat % (n - 2) < n - 2 := Nat.mod_lt _ (by omega)
  unfold mrBase
  omega

/-- Where 1 has no square roots but `1` and `-1`, repeated squaring reaches 1 from 1 or by way of `-1`. -/
theorem eq_one_or_exists_pow_eq_neg_one {R : Type*} [Ring R] [NoZeroDivisors R] {x : R} {t : Nat}
    (h : x ^ 2 ^ t = 1) : x = 1 ∨ ∃ j < t, x ^ 2 ^ j = -1 := by
  induction t with
  | zero => exact .inl (by simpa using h)
  | succ t ih =>
    rw [pow_succ, pow_mul, sq_eq_one_iff] at h
    rcases h with hone | hminus
    · exact (ih hone).imp_right fun ⟨j, hj, hx⟩ => ⟨j, by omega, hx⟩
    · exact .inr ⟨t, by omega, hminus⟩

/-- No base proves a prime composite: by Fermat, the squarings of `a^u` reach `a^(n-1) = 1`. -/
theorem mrTrial_of_prime {n a : Nat} (hp : n.Prime) (hn : 3 ≤ n) (hlt : n < 2 ^ 32) (ha : 0 < a) (han : a < n) :
    mrTrial n (decompose n).1 (decompose n).2 a = true := by
  have : Fact n.Prime := ⟨hp⟩
  obtain ⟨hdecompose, -⟩ := decompose_spec hn hlt
  have hodd : n % 2 = 1 := hp.eq_two_or_odd.resolve_left (by omega)
  have hunit : (a : ZMod n) ≠ 0 := by
    rw [Ne, ZMod.natCast_eq_zero_iff]
    exact Nat.not_dvd_of_pos_of_lt ha han
  have hfermat : ((a : ZMod n) ^ (decompose n).2) ^ 2 ^ (decompose n).1 = 1 := by
    rw [← pow_mul, Nat.mul_comm, ← hdecompose, ZMod.pow_card_sub_one_eq_one hunit]
  have hone : ∀ k, (a : ZMod n) ^ k = 1 → a ^ k % n = 1 := fun k hk => by
    have hcast : ((a ^ k : Nat) : ZMod n) = (1 : Nat) := by simpa using hk
    rwa [ZMod.natCast_eq_natCast_iff', Nat.mod_eq_of_lt hp.one_lt] at hcast
  have hminus : ∀ k, (a : ZMod n) ^ k = -1 → a ^ k % n = n - 1 := fun k hk => by
    have hcast : ((a ^ k : Nat) : ZMod n) = (n - 1 : Nat) := by simpa [Nat.cast_pred hp.pos] using hk
    rwa [ZMod.natCast_eq_natCast_iff', Nat.mod_eq_of_lt (Nat.sub_lt hp.pos one_pos)] at hcast
  rw [mrTrial_iff a hn (decompose_snd_lt hn hlt) (one_le_decompose_fst hn hodd hlt)]
  refine (eq_one_or_exists_pow_eq_neg_one hfermat).imp (hone _) fun ⟨j, hj, hx⟩ => ⟨j, hj, hminus _ ?_⟩
  rw [pow_mul, hx]

/-- Settles O9: whatever is drawn, the base is not 0 modulo the prime, and so all ten trials pass. -/
theorem mrAcceptsEveryPrime : Obligations.MrAcceptsEveryPrime := by
  intro n pt hp hn hlt
  have hall : ∀ j < 10, drawnTrial n (decompose n).1 (decompose n).2 pt j = true := fun j _ =>
    have ⟨hpos, hbase⟩ := mrBase_bounds hn (pt.ahead j)
    mrTrial_of_prime hp hn hlt hpos hbase
  exact congrArg Prod.fst (mrTrials_of_all_pass hall)

/-! ### The base 1 (R117 (c)) -/

/-- Base 1 proves no number composite, as every power of it is 1. -/
theorem mrTrial_base_one {n t u : Nat} (hn : 3 ≤ n) (hu : u < 2 ^ 32) : mrTrial n t u 1 = true := by
  have hfirst : modPow 1 u n = 1 := by rw [modPow_eq_pow_mod 1 hu (by omega), one_pow, Nat.mod_eq_of_lt (by omega)]
  rw [mrTrial, if_pos (.inl hfirst)]

/-- Settles O10: a raw draw of 0 gives the base 1, with which every trial passes. -/
theorem mrAcceptsOddWhenDrawsAreZero : Obligations.MrAcceptsOddWhenDrawsAreZero := by
  intro n pt hn _ hlt hzero
  refine mrTrials_of_all_pass fun j hj => ?_
  have hbase : mrBase n (pt.ahead j) = 1 := by rw [hzero j hj]; simp [mrBase]
  rw [drawnTrial, hbase]
  exact mrTrial_base_one hn (decompose_snd_lt hn hlt)

/-! ### MRTEST (R110, R111) -/

/-- Settles O11: the two outcomes of MRTEST, whose conditions exclude each other. -/
theorem mrtestPutsVerdictIntoR : Obligations.MrtestPutsVerdictIntoR := by
  refine ⟨decode_encode (i := .mrtest) rfl, fun s hlow hodd => ?_, fun s hbad => ?_⟩
  · rcases mrtestState_cases s with ⟨hbad, -⟩ | ⟨-, -, e⟩
    · omega
    · exact congrArg _ e
  · rcases mrtestState_cases s with ⟨-, e⟩ | ⟨hlow, hodd, -⟩
    · exact congrArg _ e
    · omega

end Machine
end Sys2Proof
end

section
/-! PROOFS. The statements about ModPow (R130 to R137): the command MODPOW, the power and its loop
invariant, the sizes of the products, and the naive reference. -/

namespace Sys2Proof
namespace Machine

/-! ### MODPOW (R130, R131) -/

/-- Settles O1: the two outcomes of MODPOW, whose conditions exclude each other; the power is that of a 32-bit exponent
and a modulus other than 0. -/
theorem modpowPutsPowerIntoR : Obligations.ModpowPutsPowerIntoR := by
  refine ⟨decode_encode (i := .modpow) rfl, fun s hn => ?_, fun s hzero => ?_⟩
  · rcases modpowState_cases s with ⟨hzero, -⟩ | ⟨-, e⟩
    · exact absurd hzero hn
    · have hpos : 0 < s.n.toNat := Nat.pos_of_ne_zero fun h => hn (BitVec.eq_of_toNat_eq h)
      rw [modPow_eq_pow_mod _ s.b.isLt hpos] at e
      exact congrArg _ e
  · rcases modpowState_cases s with ⟨-, e⟩ | ⟨hn, -⟩
    · exact congrArg _ e
    · exact absurd hzero hn

/-! ### The value and the loop invariant (R132, R133) -/

/-- Settles O2: a power modulo `n` depends on the residue of its base only. -/
theorem modPowIsPowerModulo : Obligations.ModPowIsPowerModulo := by
  intro a b n _ hb hn _
  refine ⟨modPow_eq_pow_mod a hb hn, modPow_lt a b hn, ?_⟩
  rw [modPow_eq_pow_mod _ hb hn, modPow_eq_pow_mod _ hb hn, ← Nat.pow_mod]

/-- The running value in closed form, after the iteration for bit `31 - k`. -/
theorem modPowAcc_succ_eq_pow_mod (a : Nat) {b n k : Nat} (hb : b < 2 ^ 32) (hn : 0 < n) (hk : k < 32) :
    modPowAcc a b n (k + 1) = a ^ (b / 2 ^ (31 - k)) % n := by
  have hscan : modPowAcc a b n (k + 1) ≡ a ^ (b / 2 ^ (31 - k)) [MOD n] := modPowAcc_modEq a n hb (by omega)
  exact (Nat.mod_eq_of_lt (modPowStep_lt a n _ _ hn)).symm.trans hscan

/-- Settles O3: the start, the iterations and their number are the scan's own; its value is the loop invariant. -/
theorem modPowScanKeepsLoopInvariant : Obligations.ModPowScanKeepsLoopInvariant :=
  fun a _ _ _ hb hn _ => ⟨rfl, fun _ _ => rfl, fun _ => modPowAcc_succ_eq_pow_mod a hb hn, rfl⟩

/-! ### The products (R134) -/

/-- A product has no more bits than its factors together. -/
theorem mul_lt_two_pow_add {x y i j : Nat} (hx : x < 2 ^ i) (hy : y < 2 ^ j) : x * y < 2 ^ (i + j) :=
  pow_add 2 i j ▸ Nat.mul_lt_mul'' hx hy

/-- The running value is a 32-bit value: it starts at 1, and each iteration leaves a residue of `n`. -/
theorem modPowAcc_lt_two_pow (a b : Nat) {n : Nat} (hn : 0 < n) (hlt : n < 2 ^ 32) (k : Nat) :
    modPowAcc a b n k < 2 ^ 32 := by
  cases k with
  | zero => exact Nat.one_lt_two_pow (by decide)
  | succ k => exact (modPowStep_lt a n _ _ hn).trans hlt

/-- Settles O4: both factors of each product are 32-bit values, being running values, residues of the modulus, bases or
blocks. -/
theorem scanProductsFitAccumulator : Obligations.ScanProductsFitAccumulator := by
  have hresidue : ∀ {n : Nat}, 1 ≤ n → n < 2 ^ 32 → ∀ x, x % n < 2 ^ 32 :=
    fun hn hlt x => (Nat.mod_lt x hn).trans hlt
  have hpower : ∀ {n : Nat}, 1 ≤ n → n < 2 ^ 32 → ∀ a b, modPow a b n < 2 ^ 32 :=
    fun hn hlt a b => modPowAcc_lt_two_pow a b hn hlt 32
  refine ⟨fun a b n k ha hn hlt => ?scan, fun n t u a hn hlt => ?trial, fun n j x hn hlt hx => ?squarings,
    fun e k p m hp hlt hm => ?enc, fun c1 x p c2 hp hlt => ?dec⟩
  case scan =>
    have hacc := modPowAcc_lt_two_pow a b hn hlt k
    exact ⟨hacc, mul_lt_two_pow_add hacc hacc, mul_lt_two_pow_add (hresidue hn hlt _) ha⟩
  case trial => exact ⟨rfl, modPow_lt a u hn, mul_lt_two_pow_add (hpower hn hlt a u) (hpower hn hlt a u)⟩
  case squarings =>
    exact ⟨rfl, mul_lt_two_pow_add (hx.trans hlt) (hx.trans hlt), Nat.mod_lt _ hn,
      mul_lt_two_pow_add (hresidue hn hlt _) (hresidue hn hlt _)⟩
  case enc => exact mul_lt_two_pow_add (hpower hp hlt e k) hm
  case dec => exact mul_lt_two_pow_add (hpower hp hlt c1 x) (hresidue hp hlt c2)

/-! ### The naive reference (R137) -/

/-- The naive reference multiplies up the power modulo `n`. -/
theorem naivePow_eq_pow_mod (a n b : Nat) : naivePow a n b = a ^ b % n := by
  induction b with
  | zero => rfl
  | succ b ih => rw [naivePow, ih, Nat.mod_mul_mod, pow_succ]

/-- Settles O5: both are the power modulo `n`, and so are the three values. -/
theorem modPowEqualsNaiveReference : Obligations.ModPowEqualsNaiveReference := by
  refine ⟨fun a b n _ hb hn _ => (modPow_eq_pow_mod a hb hn).trans (naivePow_eq_pow_mod a n b).symm, ?_, ?_, ?_⟩
  all_goals
    rw [modPow_eq_pow_mod _ (by decide) (by decide)]
    rfl

end Machine
end Sys2Proof
end

section
/-! PROOFS. The statements about the search for a safe prime (R150 to R156): the bits of a candidate, the ends of one
candidate and of the loop, the pair found, the draws, and the command SPSEARCH. -/

namespace Sys2Proof
namespace Machine

/-! ### The bits of a candidate (R150) -/

/-- Clearing bit 31 keeps every lower bit and none above (R192, R213). -/
theorem getLsbD_clearTop (v : Word) (i : Nat) : (clearTop v).getLsbD i = (decide (i < 31) && v.getLsbD i) := by
  rw [← BitVec.testBit_toNat, clearTop_toNat, Nat.testBit_mod_two_pow, BitVec.testBit_toNat]

/-- Bit 30 of a candidate is set, the lower bits are the draw's, and the one above is cleared. -/
theorem getLsbD_candidate (raw : Word) (i : Nat) :
    (candidate raw).getLsbD i = (decide (i < 31) && (raw.getLsbD i || decide (i = 30))) := by
  have hset : (0x40000000#32).getLsbD i = decide (i = 30) := by
    rw [show 0x40000000#32 = BitVec.twoPow 32 30 from rfl, BitVec.getLsbD_twoPow]
    simp [eq_comm]
  calc (candidate raw).getLsbD i = (clearTop (raw ||| 0x40000000#32)).getLsbD i := rfl
    _ = _ := by rw [getLsbD_clearTop, BitVec.getLsbD_or, hset]

/-- Settles O12: the bits are read off one by one, and the bounds are those of the highest bit set. -/
theorem candidateHasTopBitForced : Obligations.CandidateHasTopBitForced := by
  intro raw
  refine ⟨rfl, ?_, ?_, fun i hi => ?_, le_candidate raw, candidate_lt raw⟩
  · exact getLsbD_candidate raw 31
  · exact (getLsbD_candidate raw 30).trans (Bool.or_true _)
  · have hlt : i < 31 := by omega
    have hne : i ≠ 30 := by omega
    simp [getLsbD_candidate, hlt, hne]

/-! ### The ends of one candidate (R151, R153) -/

theorem tryCandidate_of_constraint_fails {q : Nat} (hq : q % 12 ≠ 5) (pt : RngPort) :
    tryCandidate q pt = (false, pt) := by
  rw [tryCandidate_eq, if_neg hq]

theorem tryCandidate_of_mr_fails {q : Nat} {pt pt1 : RngPort} (hq : q % 12 = 5) (h : mr q pt = (false, pt1)) :
    tryCandidate q pt = (false, pt1) := by
  simp [tryCandidate_eq, hq, h]

/-- Where MR passes for `q`, its answer for `2q + 1` is that for the candidate. -/
theorem tryCandidate_of_mr_passes {q : Nat} {pt pt1 : RngPort} (hq : q % 12 = 5) (h : mr q pt = (true, pt1)) :
    tryCandidate q pt = mr (2 * q + 1) pt1 := by
  simp [tryCandidate_eq, hq, h]

/-- An accepted candidate has passed MR, and then `2q + 1` has, from the port the first call left. -/
theorem mr_of_accepted {q : Nat} {pt pt' : RngPort} (h : tryCandidate q pt = (true, pt')) :
    ∃ pt1, mr q pt = (true, pt1) ∧ mr (2 * q + 1) pt1 = (true, pt') := by
  have hq := constraint_of_accepted h
  cases hmr : mr q pt with
  | mk verdict pt1 =>
    cases verdict with
    | false => cases (tryCandidate_of_mr_fails hq hmr).symm.trans h
    | true => exact ⟨pt1, rfl, (tryCandidate_of_mr_passes hq hmr).symm.trans h⟩

/-! ### One round of the loop (R151) -/

/-- An accepted candidate ends the search. -/
theorem searchFrom_of_accepted {pt pt' : RngPort} (k attempts : Nat)
    (h : tryCandidate (candidate (pt.ahead 0)).toNat (pt.afterDraws 1) = (true, pt')) :
    searchFrom (k + 1) attempts pt
      = (.found (candidate (pt.ahead 0)).toNat (2 * (candidate (pt.ahead 0)).toNat + 1) (attempts + 1), pt') := by
  rw [searchFrom_succ, draw_eq, h, if_pos rfl]

/-- A rejected candidate is counted, and the draws it has taken stay taken. -/
theorem searchFrom_of_rejected {pt pt' : RngPort} (k attempts : Nat)
    (h : tryCandidate (candidate (pt.ahead 0)).toNat (pt.afterDraws 1) = (false, pt')) :
    searchFrom (k + 1) attempts pt = searchFrom k (attempts + 1) pt' := by
  rw [searchFrom_succ, draw_eq, h, if_neg Bool.false_ne_true]

/-- Settles O13: the four ends of a candidate, in the order of its tests. -/
theorem searchTriesOneCandidateAtATime : Obligations.SearchTriesOneCandidateAtATime := by
  intro k attempts maxAttempts pt q pt1
  refine ⟨rfl, rfl, ?_⟩
  split_ifs with hconstraint hq hp
  · exact searchFrom_of_rejected k attempts (tryCandidate_of_constraint_fails hconstraint pt1)
  · exact searchFrom_of_rejected k attempts (tryCandidate_of_mr_fails (not_not.mp hconstraint) (Prod.ext hq rfl))
  all_goals
    have hmr : mr q pt1 = (true, (mr q pt1).2) := Prod.ext (Bool.eq_true_of_not_eq_false hq) rfl
    have htry := tryCandidate_of_mr_passes (not_not.mp hconstraint) hmr
  · exact searchFrom_of_rejected k attempts (htry.trans (Prod.ext hp rfl))
  · exact searchFrom_of_accepted k attempts (htry.trans (Prod.ext (Bool.eq_true_of_not_eq_false hp) rfl))

/-! ### The ends of the search (R154, R156) -/

/-- A search finds a pair at an attempt it counts, or is exhausted after all the candidates it may sample. -/
theorem searchFrom_found_or_exhausted (k attempts : Nat) (pt : RngPort) :
    (∃ q p count, (searchFrom k attempts pt).1 = .found q p count ∧ attempts < count)
      ∨ (searchFrom k attempts pt).1 = .exhausted (attempts + k) := by
  induction k generalizing attempts pt with
  | zero => exact .inr rfl
  | succ k ih =>
    rw [searchFrom_succ]
    split
    · exact .inl ⟨_, _, _, rfl, attempts.lt_succ_self⟩
    · rw [Nat.add_comm k, ← Nat.add_assoc]
      exact (ih _ _).imp_left fun ⟨q, p, count, hfound, hlt⟩ => ⟨q, p, count, hfound, by omega⟩

/-- Only a search that has sampled as many candidates as it may is exhausted (R154). -/
theorem attempts_of_exhausted {bound count : Nat} {pt pt' : RngPort}
    (h : safePrimeFind bound pt = (.exhausted count, pt')) : count = bound := by
  have hends := searchFrom_found_or_exhausted bound 0 pt
  rw [← safePrimeFind, h] at hends
  simpa using hends

/-- A pair is found at an attempt from 1 to the bound (R34, R154). -/
theorem attempts_of_found {bound q p count : Nat} {pt pt' : RngPort}
    (h : safePrimeFind bound pt = (.found q p count, pt')) : 1 ≤ count ∧ count ≤ bound := by
  have hends := searchFrom_found_or_exhausted bound 0 pt
  obtain ⟨-, hle, -⟩ := safePrimeFind_draws bound pt
  rw [h] at hle
  rw [← safePrimeFind, h] at hends
  have hpos : 0 < count := by simpa using hends
  exact ⟨hpos, hle⟩

/-- Settles O14: the pair is an accepted candidate. The bounds of `p` are those of `q`, narrowed by its residue. -/
theorem foundPairMeetsConstraint : Obligations.FoundPairMeetsConstraint := by
  intro bound q p count pt pt' hfound
  obtain ⟨hlow, hhigh, hmod⟩ := safePrimeFind_candidate hfound
  obtain ⟨-, ptq, -, rfl, haccept⟩ := searchFrom_found hfound
  obtain ⟨ptp, hq, hp⟩ := mr_of_accepted haccept
  obtain ⟨hpos, hle⟩ := attempts_of_found hfound
  exact ⟨hlow, hhigh, hmod, rfl, by omega, by omega, by omega, ⟨ptq, ptp, hq, hp⟩, hpos, hle⟩

/-- Draws that all fail the constraint exhaust the search, at one draw for each attempt. -/
theorem searchFrom_of_constraint_fails {k : Nat} {pt : RngPort} (attempts : Nat)
    (h : ∀ j < k, (candidate (pt.ahead j)).toNat % 12 ≠ 5) :
    searchFrom k attempts pt = (.exhausted (attempts + k), pt.afterDraws k) := by
  induction k generalizing attempts pt with
  | zero => rw [searchFrom, afterDraws_zero, Nat.add_zero]
  | succ k ih =>
    have hfirst := tryCandidate_of_constraint_fails (h 0 k.succ_pos) (pt.afterDraws 1)
    have hrest : ∀ j < k, (candidate ((pt.afterDraws 1).ahead j)).toNat % 12 ≠ 5 := fun j hj => by
      rw [ahead_afterDraws]
      exact h (1 + j) (by omega)
    rw [searchFrom_of_rejected k attempts hfirst, ih _ hrest, afterDraws_afterDraws, Nat.add_assoc, Nat.add_comm 1]

/-- Settles O17: the loop counts every candidate it samples, and a constraint that fails costs no further draw. -/
theorem searchExhaustsAtTheBound : Obligations.SearchExhaustsAtTheBound :=
  ⟨fun _ _ _ _ => attempts_of_exhausted,
    fun bound _ hfails => (searchFrom_of_constraint_fails 0 hfails).trans (by rw [Nat.zero_add bound])⟩

/-! ### The draws (R155) -/

/-- MR passes after exactly ten draws, or ends in trial `i` after `i` draws (R116). -/
theorem mr_passes_or_fails (n : Nat) (pt : RngPort) :
    mr n pt = (true, pt.afterDraws 10) ∨ ∃ i, 1 ≤ i ∧ i ≤ 10 ∧ mr n pt = (false, pt.afterDraws i) := by
  rcases mrDrawsOneBasePerTrialStarted n pt with ⟨-, hpass⟩ | ⟨i, hlow, hhigh, -, -, hfail⟩
  · exact .inl hpass
  · exact .inr ⟨i, hlow, hhigh, hfail⟩

/-- Settles O16: the two calls of MR for a candidate, and the loop's own count of its candidates. -/
theorem searchDrawsBetweenOneAndTwentyOnePerAttempt : Obligations.SearchDrawsBetweenOneAndTwentyOnePerAttempt := by
  refine ⟨fun q pt => ?candidate, fun bound pt => ?search⟩
  case candidate =>
    by_cases hq : q % 12 = 5
    · refine .inr ⟨hq, ?_⟩
      rcases mr_passes_or_fails q pt with hpass | ⟨i, hlow, hhigh, hfail⟩
      · rw [tryCandidate_of_mr_passes hq hpass, hpass]
        rcases mr_passes_or_fails (2 * q + 1) (pt.afterDraws 10) with hpass' | ⟨i, hlow, hhigh, hfail'⟩
        · exact ⟨1, le_rfl, by decide, .inr (.inr ⟨rfl, by rw [hpass', afterDraws_afterDraws]⟩)⟩
        · exact ⟨i, hlow, hhigh, .inr (.inl ⟨rfl, by rw [hfail', afterDraws_afterDraws]⟩)⟩
      · exact ⟨i, hlow, hhigh, .inl ⟨by rw [hfail], tryCandidate_of_mr_fails hq hfail⟩⟩
    · exact .inl ⟨hq, tryCandidate_of_constraint_fails hq pt⟩
  case search =>
    obtain ⟨draws, -, hlow, hhigh, hport⟩ := safePrimeFind_draws bound pt
    refine ⟨draws, _, hport, hlow, hhigh, ?_⟩
    cases (safePrimeFind bound pt).1 with
    | found q p count => exact .inr ⟨q, p, rfl⟩
    | exhausted count => exact .inl rfl

/-! ### Acceptance is not primality (R156, R117 (c)) -/

/-- With twenty raw draws of 0 every base is 1, and any candidate that meets the constraint is accepted. -/
theorem tryCandidate_of_zero_draws {q : Nat} {pt : RngPort} (hq : q % 12 = 5) (hlt : q < 2 ^ 31)
    (hzero : ∀ j < 20, pt.ahead j = 0#32) : tryCandidate q pt = (true, pt.afterDraws 20) := by
  have hfirst : mr q pt = (true, pt.afterDraws 10) :=
    mrAcceptsOddWhenDrawsAreZero q pt (by omega) (by omega) (by omega) fun j hj => hzero j (by omega)
  have hzero' : ∀ j < 10, (pt.afterDraws 10).ahead j = 0#32 := fun j hj => by
    rw [ahead_afterDraws]
    exact hzero (10 + j) (by omega)
  rw [tryCandidate_of_mr_passes hq hfirst,
    mrAcceptsOddWhenDrawsAreZero (2 * q + 1) _ (by omega) (by omega) (by omega) hzero', afterDraws_afterDraws]

/-- The draws of vector F8: the raw candidate 1, then twenty draws of 0. -/
def drawsOfBaseOne : RngPort := ⟨⟨none, 0, [(none, 1#32 :: List.replicate 20 0#32)]⟩, 0#32⟩

/-- Settles O15: the candidate of F8 is `0x40000001`, divisible by 5, and `2q + 1` is divisible by 83; both pass with the
base 1. -/
theorem compositePairCanBeAccepted : Obligations.CompositePairCanBeAccepted := by
  have hq : (candidate (drawsOfBaseOne.ahead 0)).toNat = 0x40000001 := by decide
  have hzero : ∀ j < 20, (drawsOfBaseOne.afterDraws 1).ahead j = 0#32 := by decide
  have haccept := tryCandidate_of_zero_draws (by rw [hq]) (candidate_lt (drawsOfBaseOne.ahead 0)) hzero
  refine ⟨drawsOfBaseOne, (drawsOfBaseOne.afterDraws 1).afterDraws 20, 0x40000001, 2 * 0x40000001 + 1, by norm_num,
    by norm_num, fun bound hbound => ?_⟩
  obtain ⟨k, rfl⟩ := Nat.exists_eq_add_of_le' hbound
  exact hq ▸ searchFrom_of_accepted k 0 haccept

/-! ### SPSEARCH (R152) -/

/-- Settles O18: the two outcomes of SPSEARCH are those of its search. -/
theorem spsearchLeavesPairInQAndP : Obligations.SpsearchLeavesPairInQAndP := by
  refine ⟨decode_encode (i := .spsearch) rfl, fun s q p count pt hfound => ?_, fun s count pt hexhausted => ?_⟩
  · rcases spsearchState_cases Config.maxAttempts s with ⟨_, _, hfind, -⟩ | ⟨_, _, _, _, hfind, e⟩
    · cases hfound.symm.trans hfind
    · cases hfound.symm.trans hfind
      exact congrArg _ e
  · obtain rfl := attempts_of_exhausted hexhausted
    refine ⟨rfl, ?_⟩
    rcases spsearchState_cases Config.maxAttempts s with ⟨_, _, hfind, e⟩ | ⟨_, _, _, _, hfind, -⟩
    · cases hexhausted.symm.trans hfind
      exact congrArg _ e
    · cases hexhausted.symm.trans hfind

end Machine
end Sys2Proof
end

section
/-! PROOFS. The statements about KEYGEN and RSEED (R170 to R179): the four endings of KEYGEN, the key a successful one
leaves, that its outcome depends on the seed and the source only, and the command RSEED. -/

namespace Sys2Proof
namespace Machine

/-- The exponent drawn for a key lies in `[1, p]`, so only `d = p` is left to reject (R173). -/
theorem keyExponent_bounds {p : Nat} (hp : 0 < p) (raw : Word) : 1 ≤ keyExponent p raw ∧ keyExponent p raw ≤ p :=
  ⟨Nat.le_add_left 1 _, Nat.mod_lt _ hp⟩

/-! ### The endings of KEYGEN (R170 to R176) -/

section
variable {bound attempts q p : Nat} {s : State} {pt : RngPort}

/-- The seed check comes first (R171). -/
theorem keygenState_of_invalidSeed (bound : Nat) (hseed : 10000 < s.seed.toNat) :
    keygenState bound s = s.raiseError .invalidSeed := by
  rw [keygenState, if_pos hseed]

/-- An exhausted search leaves ATTEMPTS and its draws (R172). -/
theorem keygenState_of_exhausted (hseed : s.seed.toNat ≤ 10000)
    (hfind : safePrimeFind bound (s.port.rngSeed s.seed) = (.exhausted attempts, pt)) :
    keygenState bound s = (s.afterSearch attempts pt).raiseError .primeSearchExhausted := by
  rw [keygenState, if_neg (Nat.not_lt.mpr hseed), hfind]

/-- A pair found is handed to the commit (R173). -/
theorem keygenState_of_found (hseed : s.seed.toNat ≤ 10000)
    (hfind : safePrimeFind bound (s.port.rngSeed s.seed) = (.found q p attempts, pt)) :
    keygenState bound s = keygenCommit q p (s.afterSearch attempts pt) := by
  rw [keygenState, if_neg (Nat.not_lt.mpr hseed), hfind]

/-- `d = p` ends KEYGEN without a key, the draw taken (R174). -/
theorem keygenState_of_exponent_eq (hseed : s.seed.toNat ≤ 10000)
    (hfind : safePrimeFind bound (s.port.rngSeed s.seed) = (.found q p attempts, pt))
    (heq : keyExponent p (pt.ahead 0) = p) :
    keygenState bound s = (s.afterSearch attempts (pt.afterDraws 1)).raiseError .arithmeticInvariant := by
  rw [keygenState_of_found hseed hfind]
  rcases keygenCommit_cases q p (s.afterSearch attempts pt) with ⟨-, e⟩ | ⟨hne, -⟩
  · exact e
  · exact absurd heq hne

/-- Any other `d` is written with its key; E is the power itself, as `d` has at most 32 bits (R175, R176). -/
theorem keygenState_of_exponent_ne {d : Nat} (hseed : s.seed.toNat ≤ 10000)
    (hfind : safePrimeFind bound (s.port.rngSeed s.seed) = (.found q p attempts, pt))
    (hd : d = keyExponent p (pt.ahead 0)) (hne : d ≠ p) :
    keygenState bound s
      = State.complete { s.afterSearch attempts (pt.afterDraws 1) with
          q := BitVec.ofNat 32 q, p := BitVec.ofNat 32 p, g := 2#32
          e := BitVec.ofNat 32 (2 ^ d % p), d := BitVec.ofNat 32 d } := by
  subst hd
  rw [keygenState_of_found hseed hfind]
  rcases keygenCommit_cases q p (s.afterSearch attempts pt) with ⟨heq, -⟩ | ⟨-, e⟩
  · exact absurd heq hne
  · obtain ⟨-, -, -, -, -, hlow, hhigh, -⟩ := foundPairMeetsConstraint _ _ _ _ _ _ hfind
    have hpos : 0 < p := by omega
    have hlt : p < 2 ^ 32 := by omega
    obtain ⟨-, hle⟩ := keyExponent_bounds hpos (pt.ahead 0)
    rwa [draw_eq, State.afterSearch_port, modPow_eq_pow_mod 2 (hle.trans_lt hlt) hpos] at e

end

/-- Settles O19: an illegal seed, an exhausted search, and, after a pair, the two outcomes of the draw for `d`. -/
theorem keygenWritesKeyPair : Obligations.KeygenWritesKeyPair :=
  ⟨decode_encode (i := .keygen) rfl,
    fun _ hseed => congrArg _ (keygenState_of_invalidSeed _ hseed),
    fun _ _ _ hseed hfind => congrArg _ (keygenState_of_exhausted hseed hfind),
    fun _ _ _ _ _ _ hseed hfind hd hne => congrArg _ (keygenState_of_exponent_ne hseed hfind hd hne),
    fun _ _ _ _ _ hseed hfind heq => congrArg _ (keygenState_of_exponent_eq hseed hfind heq)⟩

/-! ### The key of a successful KEYGEN (R178) -/

/-- A KEYGEN without error had a legal seed, found a pair, and drew a `d` other than `p` for it. -/
theorem found_of_keygenState_no_error {bound : Nat} {s : State} (herr : (keygenState bound s).err = false) :
    ∃ q p attempts pt, s.seed.toNat ≤ 10000
      ∧ safePrimeFind bound (s.port.rngSeed s.seed) = (.found q p attempts, pt) ∧ keyExponent p (pt.ahead 0) ≠ p := by
  rcases keygenState_cases bound s with ⟨-, e⟩ | ⟨_, _, -, -, e⟩ | ⟨q, p, attempts, pt, hseed, hfind, -⟩
  · cases e ▸ herr
  · cases e ▸ herr
  · refine ⟨q, p, attempts, pt, hseed, hfind, fun heq => ?_⟩
    cases keygenState_of_exponent_eq hseed hfind heq ▸ herr

/-- Settles O20: the pair is that of R156, whose bounds make every key register hold its value exactly. -/
theorem successfulKeygenGivesConsistentKey : Obligations.SuccessfulKeygenGivesConsistentKey := by
  rintro s t ⟨⟩ herr
  obtain ⟨q, p, attempts, pt, hseed, hfind, hne⟩ := found_of_keygenState_no_error herr
  obtain ⟨-, -, hmod, hpair, hodd, hlow, hhigh, ⟨ptq, ptp, hmrq, hmrp⟩, -⟩ :=
    foundPairMeetsConstraint _ _ _ _ _ _ hfind
  have hpos : 0 < p := by omega
  obtain ⟨hd, hle⟩ := keyExponent_bounds hpos (pt.ahead 0)
  have hexact : ∀ x ≤ p, (BitVec.ofNat 32 x).toNat = x := fun x hx =>
    BitVec.toNat_ofNat .. ▸ Nat.mod_eq_of_lt (by omega)
  rw [keygenState_of_exponent_ne hseed hfind rfl hne]
  refine ⟨rfl, ?_⟩
  simp only [State.complete_p, State.complete_q, State.complete_d, State.complete_e, State.complete_port,
    State.afterSearch_port]
  rw [hexact q (by omega), hexact p le_rfl, hexact _ hle, hexact _ (Nat.mod_lt _ hpos).le]
  exact ⟨hpair, hodd, by omega, hmod, hd, lt_of_le_of_ne hle hne, rfl, ptq, ptp, pt, hmrq, hmrp, rfl⟩

/-! ### Equal seeds on one source (R179) -/

/-- Settles O21: seeded alike, both search from the same port, and what the search answers and the draw after it decide
the ending of both. -/
theorem keygenDependsOnSeedAndSourceOnly : Obligations.KeygenDependsOnSeedAndSourceOnly := by
  rintro s1 s2 _ _ hseeds hseed1 hstreams ⟨⟩ ⟨⟩
  have hseed2 : s2.seed.toNat ≤ 10000 := hseeds ▸ hseed1
  have hports : s1.port.rngSeed s1.seed = s2.port.rngSeed s2.seed := hseeds ▸ rngSeed_eq_of_streams hstreams s1.seed
  rcases hfind2 : safePrimeFind Config.maxAttempts (s2.port.rngSeed s2.seed) with ⟨result, pt⟩
  have hfind1 := (congrArg _ hports).trans hfind2
  cases result with
  | exhausted attempts =>
    rw [keygenState_of_exhausted hseed1 hfind1, keygenState_of_exhausted hseed2 hfind2]
    exact ⟨rfl, rfl, rfl, rfl, fun herr => by cases herr⟩
  | found q p attempts =>
    by_cases heq : keyExponent p (pt.ahead 0) = p
    · rw [keygenState_of_exponent_eq hseed1 hfind1 heq, keygenState_of_exponent_eq hseed2 hfind2 heq]
      exact ⟨rfl, rfl, rfl, rfl, fun herr => by cases herr⟩
    · rw [keygenState_of_exponent_ne hseed1 hfind1 rfl heq, keygenState_of_exponent_ne hseed2 hfind2 rfl heq]
      exact ⟨rfl, rfl, rfl, rfl, fun _ => ⟨rfl, rfl, rfl, rfl, rfl⟩⟩

/-! ### RSEED (R177) -/

/-- Settles O22: RSEED has one outcome, the seeding of the port. -/
theorem rseedSeedsSourceFromSeed : Obligations.RseedSeedsSourceFromSeed :=
  ⟨decode_encode (i := .rseed) rfl, fun _ => rfl⟩

end Machine
end Sys2Proof
end

section
/-! PROOFS. The statements about PUSH and ENC (R190 to R196): the two endings of one push, the buffer after several, the
block they form, and the endings of ENC. -/

namespace Sys2Proof
namespace Machine

/-! ### One push (R190) -/

/-- A byte enters a buffer with room. -/
theorem exec_push_of_room {s : State} {v : Word} (hbyte : v.toNat < 256) (hroom : s.icnt ≠ 4#3) :
    exec (.push v) s = .next (s.pushByte (v.setWidth 8)).answerWrite := by
  rcases pushState_cases v s with ⟨hbad | hfull, -⟩ | ⟨-, -, e⟩
  · omega
  · exact absurd hfull hroom
  · exact congrArg _ e

/-- A byte value survives being cut to eight bits and widened again. -/
theorem setWidth_setWidth_of_byte {v : Word} (hbyte : v.toNat < 256) : (v.setWidth 8).setWidth 32 = v := by
  apply BitVec.eq_of_toNat_eq
  rw [BitVec.toNat_setWidth, BitVec.toNat_setWidth]
  omega

/-- Settles O24: the two endings of PUSH, whose conditions exclude each other. -/
theorem pushAppendsByte : Obligations.PushAppendsByte := by
  refine ⟨fun v hbyte => ?_, fun s v hbyte hroom => ?_, fun s v hbad => ?_⟩
  · exact (decode_write_bin v).trans (if_pos ((shiftRight_eight_eq_zero v).mpr hbyte))
  · rw [exec_push_of_room hbyte hroom, State.pushByte, setWidth_setWidth_of_byte hbyte]
    rfl
  · exact exec_of_refuses ((State.refuses_push s v).mpr hbad)

/-! ### Pushes in a row (R40, R190) -/

/-- The number that bytes spell after `acc`, each one to the right of those before it (R40). -/
def bigEndian (acc : Nat) (bytes : List Byte) : Nat := bytes.foldl (fun acc x => acc * 256 + x.toNat) acc

/-- The first of several pushes, into a buffer with room. -/
theorem pushAll_cons_of_room {s : State} (hroom : s.icnt ≠ 4#3) (x : Byte) (rest : List Byte) :
    pushAll s (x :: rest) = pushAll (s.pushByte x).answerWrite rest := by
  have hword : (pushWord x).toNat = x.toNat := BitVec.toNat_setWidth_of_le (by decide)
  have hbyte : (pushWord x).setWidth 8 = x := by simp [pushWord]
  rw [pushAll, exec_push_of_room (hword ▸ x.isLt) hroom, hbyte]

/-- Bytes that fit are all accepted: they are counted, stand to the right of those already there, and nothing but the
input buffer and the response is written. -/
theorem pushAll_of_fits {s : State} {bytes : List Byte} (hok : s.InputOk) (hfits : s.icnt.toNat + bytes.length ≤ 4) :
    ∃ t, pushAll s bytes = .next t ∧ t.icnt.toNat = s.icnt.toNat + bytes.length
      ∧ t.ibuf.toNat = bigEndian s.ibuf.toNat bytes
      ∧ (bytes ≠ [] ∨ s.resp = some .okayWrite → t.resp = some .okayWrite)
      ∧ t = { s with ibuf := t.ibuf, icnt := t.icnt, resp := t.resp } := by
  induction bytes generalizing s with
  | nil => exact ⟨s, rfl, rfl, rfl, fun h => h.resolve_left (absurd rfl), rfl⟩
  | cons x rest ih =>
    rw [List.length_cons] at hfits ⊢
    have hlt : s.icnt.toNat < 4 := by omega
    have hroom : s.icnt ≠ 4#3 := fun e => by simp [e] at hlt
    have hbytes : s.ibuf.toNat < 2 ^ 24 := hok.2.trans_le (Nat.pow_le_pow_right (by decide) (by omega))
    have hcount := pushByte_icnt_toNat s x hlt
    obtain ⟨t, hpush, hicnt, hibuf, hresp, hframe⟩ :=
      ih (s := (s.pushByte x).answerWrite) (hok.pushByte hroom x) (by rw [State.answerWrite_icnt]; omega)
    rw [State.answerWrite_icnt] at hicnt
    rw [State.answerWrite_ibuf, pushByte_ibuf_toNat s x hbytes] at hibuf
    exact ⟨t, (pushAll_cons_of_room hroom x rest).trans hpush, by omega, hibuf, fun _ => hresp (.inr rfl), hframe⟩

/-- Up to four bytes pushed into an empty buffer are all accepted. -/
theorem pushAll_of_empty {s : State} {bytes : List Byte} (hibuf : s.ibuf = 0#32) (hicnt : s.icnt = 0#3)
    (hlen : bytes.length ≤ 4) :
    ∃ t, pushAll s bytes = .next t ∧ t.icnt.toNat = bytes.length ∧ t.ibuf.toNat = bigEndian 0 bytes
      ∧ (bytes ≠ [] → t.resp = some .okayWrite) ∧ t = { s with ibuf := t.ibuf, icnt := t.icnt, resp := t.resp } := by
  obtain ⟨t, hpush, hcount, hbytes, hresp, hframe⟩ := pushAll_of_fits (State.inputOk_of_empty hibuf hicnt)
    (bytes := bytes) (by simpa [hicnt] using hlen)
  exact ⟨t, hpush, by simpa [hicnt] using hcount, by simpa [hibuf] using hbytes, fun h => hresp (.inl h), hframe⟩

/-- Settles O27: the registers it names beside the input buffer and the response are in the frame of the pushes. -/
theorem fourBytesFitTheBuffer : Obligations.FourBytesFitTheBuffer := by
  intro s bytes hibuf hicnt hlen
  obtain ⟨t, hpush, hcount, hbytes, hresp, hframe⟩ := pushAll_of_empty hibuf hicnt hlen
  refine ⟨t, hpush, hcount, hbytes, hresp, ?_, ?_, ?_, ?_, ?_⟩ <;> rw [hframe]

/-! ### The block (R192) -/

/-- Zero bytes on the right take the bytes pushed to their places in the block. -/
theorem bigEndian_mul_eq_blockValue : ∀ {bytes : List Byte}, bytes.length ≤ 4 →
    bigEndian 0 bytes * 2 ^ (8 * (4 - bytes.length)) = blockValue bytes
  | [], _ => rfl
  | [_], _ => by simp [bigEndian, blockValue]
  | [_, _], _ => by simp [bigEndian, blockValue, add_mul, mul_assoc]
  | [_, _, _], _ => by simp [bigEndian, blockValue, add_mul, mul_assoc]
  | [_, _, _, _], _ => by simp [bigEndian, blockValue, add_mul, mul_assoc]
  | _ :: _ :: _ :: _ :: _ :: _, hlen => absurd hlen (by simp)

/-- Settles O26: the block is the buffer of O27, padded on the right, with bit 31 cleared. -/
theorem pushedBytesFormBigEndianBlock : Obligations.PushedBytesFormBigEndianBlock := by
  intro s t bytes hibuf hicnt _ hlen hpushed
  obtain ⟨_, hpush, hcount, hbytes, -⟩ := pushAll_of_empty hibuf hicnt hlen
  cases hpushed.symm.trans hpush
  exact ⟨hcount, by rw [State.block_toNat, hcount, hbytes, bigEndian_mul_eq_blockValue hlen]⟩

/-! ### ENC (R191 to R196) -/

/-- A modulus that is not above the block ends ENC before the draw; `P = 0` is never above it (R193). -/
theorem encState_of_le_block {s : State} (hicnt : s.icnt ≠ 0#3) (hle : s.p.toNat ≤ s.block.toNat) :
    encState s = s.fails 3#4 := by
  rcases encState_cases s with ⟨hempty, -⟩ | ⟨-, -, e⟩ | ⟨-, -, hlt, -⟩
  · exact absurd hempty hicnt
  · exact e
  · omega

/-- A block below the modulus is encrypted (R195, R196). -/
theorem encState_of_block_lt {s : State} (hicnt : s.icnt ≠ 0#3) (hlt : s.block.toNat < s.p.toNat) :
    encState s = encCommit s := by
  rcases encState_cases s with ⟨hempty, -⟩ | ⟨-, hle, -⟩ | ⟨-, -, -, e⟩
  · exact absurd hempty hicnt
  · omega
  · exact e

/-- The ciphertext pair in closed form: the ephemeral exponent is a residue of `p`, so both powers are exact
(R194, R195). -/
theorem encCommit_eq {s : State} {k m : Nat} (hp : 0 < s.p.toNat) (hk : k = (s.port.ahead 0).toNat % s.p.toNat)
    (hm : m = s.block.toNat) :
    encCommit s = State.succeeds { s with
      c1 := BitVec.ofNat 32 (s.g.toNat ^ k % s.p.toNat)
      c2 := BitVec.ofNat 32 (s.e.toNat ^ k % s.p.toNat * m % s.p.toNat)
      m := BitVec.ofNat 32 m, ibuf := 0#32, icnt := 0#3, port := s.port.afterDraws 1 } := by
  have hk32 : k < 2 ^ 32 := hk ▸ (Nat.mod_lt _ hp).trans s.p.isLt
  rw [← modPow_eq_pow_mod _ hk32 hp, ← modPow_eq_pow_mod _ hk32 hp, hk, hm, BitVec.ofNat_toNat, BitVec.setWidth_eq]
  rfl

/-- Settles O28: the failing checks of ENC in their order, then the commit, with the block as a number. -/
theorem encWritesCiphertextPair : Obligations.EncWritesCiphertextPair := by
  refine ⟨decode_encode (i := .enc) rfl, fun s hempty => ?empty, fun s hicnt hzero => ?zero,
    fun s hicnt _ hle => ?tooLarge, fun s hicnt _ hlt => ?encrypts⟩
  case empty =>
    rcases encState_cases s with ⟨-, e⟩ | ⟨hicnt, -⟩ | ⟨hicnt, -⟩
    · exact congrArg _ e
    · exact absurd hempty hicnt
    · exact absurd hempty hicnt
  case zero => exact congrArg _ (encState_of_le_block hicnt (hzero ▸ Nat.zero_le _))
  case tooLarge => exact congrArg _ (encState_of_le_block hicnt (s.block_toNat ▸ hle))
  case encrypts =>
    rw [← s.block_toNat] at hlt
    exact congrArg _ ((encState_of_block_lt hicnt hlt).trans
      (encCommit_eq (Nat.zero_lt_of_lt hlt) rfl s.block_toNat.symm))

end Machine
end Sys2Proof
end

section
/-! PROOFS. The statements about DEC and POP (R210 to R216): one pop and four in a row, the endings of DEC, and the block
that DEC recovers from what ENC wrote. -/

namespace Sys2Proof
namespace Machine

/-! ### One pop (R215) -/

/-- A waiting byte is returned and leaves the buffer. -/
theorem exec_pop_of_waiting {s : State} (hwaiting : s.ocnt ≠ 0#3) :
    exec .pop s = .next (s.popByte.answerRead s.nextByte) := by
  rcases popState_cases s with ⟨hempty, -⟩ | ⟨-, e⟩
  · exact absurd hempty hwaiting
  · exact congrArg _ e

/-- The byte that leaves next, as a number (R39). -/
theorem State.nextByte_eq (s : State) : s.nextByte = BitVec.ofNat 32 (s.obuf.toNat / 2 ^ 24) := by
  apply BitVec.eq_of_toNat_eq
  rw [State.nextByte, BitVec.toNat_ushiftRight, Nat.shiftRight_eq_div_pow, BitVec.toNat_ofNat]
  omega

/-- Settles O25: the two endings of POP, whose conditions exclude each other. -/
theorem popReturnsNextByte : Obligations.PopReturnsNextByte := by
  refine ⟨decode_encode (i := .pop) rfl, fun s hwaiting => ?_, fun s hempty => ?_⟩
  · rw [exec_pop_of_waiting hwaiting, s.nextByte_eq]
    rfl
  · exact exec_of_refuses ((State.refuses_pop s).mpr hempty)

/-! ### DEC (R210 to R213) -/

/-- Clearing bit 31 of a number cut to a word (R213). -/
theorem clearTop_ofNat (x : Nat) : clearTop (BitVec.ofNat 32 x) = BitVec.ofNat 32 (x % 2 ^ 31) := by
  apply BitVec.eq_of_toNat_eq
  rw [clearTop_toNat, BitVec.toNat_ofNat, BitVec.toNat_ofNat]
  omega

/-- The formula of DEC in closed form: its exponent fits 32 bits (R210). -/
theorem plainOf_eq {p : Nat} (hp : 0 < p) (hlt : p < 2 ^ 32) (d c1 c2 : Nat) :
    plainOf p d c1 c2 = c1 ^ (p - 1 - d) % p * (c2 % p) % p := by
  rw [plainOf, modPow_eq_pow_mod c1 (by omega) hp]

/-- A value that is not below the modulus ends DEC; `P = 0` has nothing below it (R212). -/
theorem decState_of_out_of_range {s : State} (hocnt : s.ocnt = 0#3)
    (hrange : s.p.toNat ≤ s.d.toNat ∨ s.p.toNat ≤ s.c1.toNat ∨ s.p.toNat ≤ s.c2.toNat) :
    decState s = s.fails 3#4 := by
  rcases decState_cases s with ⟨hbytes, -⟩ | ⟨-, -, e⟩ | ⟨-, hd, hc1, hc2, -⟩
  · exact absurd hocnt hbytes
  · exact e
  · omega

/-- With the buffer empty and its operands in range, DEC delivers the block (R214). -/
theorem decState_of_in_range {s : State} (hocnt : s.ocnt = 0#3) (hd : s.d.toNat < s.p.toNat)
    (hc1 : s.c1.toNat < s.p.toNat) (hc2 : s.c2.toNat < s.p.toNat) :
    decState s = State.complete { s with m := s.decrypted, obuf := s.decrypted, ocnt := 4#3 } := by
  rcases decState_cases s with ⟨hbytes, -⟩ | ⟨-, hrange, -⟩ | ⟨-, -, -, -, e⟩
  · exact absurd hocnt hbytes
  · omega
  · exact e

/-- Settles O29: the failing checks of DEC, then the block as a number. -/
theorem decRecoversBlock : Obligations.DecRecoversBlock := by
  refine ⟨decode_encode (i := .dec) rfl, fun s hbytes => ?undelivered, fun s hocnt hbad => ?outOfRange,
    fun s hocnt _ hd hc1 hc2 => ?decrypts⟩
  case undelivered =>
    rcases decState_cases s with ⟨-, e⟩ | ⟨hocnt, -⟩ | ⟨hocnt, -⟩
    · exact congrArg _ e
    · exact absurd hocnt hbytes
    · exact absurd hocnt hbytes
  case outOfRange =>
    rcases hbad with hzero | hrange
    · exact congrArg _ (decState_of_out_of_range hocnt (.inl (hzero ▸ Nat.zero_le _)))
    · exact congrArg _ (decState_of_out_of_range hocnt hrange)
  case decrypts =>
    have hdec := decState_of_in_range hocnt hd hc1 hc2
    rw [State.decrypted, clearTop_ofNat, plainOf_eq (Nat.zero_lt_of_lt hd) s.p.isLt] at hdec
    exact congrArg _ hdec

/-! ### The bytes of a block, popped (R214, R215) -/

/-- `k` of the four bytes of `v` have been popped, and nothing else is in the buffer. -/
def State.HasPopped (s : State) (v : Word) (k : Nat) : Prop :=
  s.obuf = v <<< (8 * k) ∧ s.ocnt = BitVec.ofNat 3 (4 - k)

/-- Byte `k` of a word, from the left, stands at the left once the bytes before it are shifted out. -/
theorem toNat_shiftLeft_div (v : Word) {k : Nat} (hk : k < 4) :
    (v <<< (8 * k)).toNat / 2 ^ 24 = v.toNat / 2 ^ (24 - 8 * k) % 256 := by
  rw [BitVec.toNat_shiftLeft, Nat.shiftLeft_eq]
  interval_cases k <;> omega

/-- The pop of byte `k`. -/
theorem State.HasPopped.exec_pop {s : State} {v : Word} {k : Nat} (h : s.HasPopped v k) (hk : k < 4) :
    ∃ t, exec .pop s = .next t ∧ t.HasPopped v (k + 1)
      ∧ t.resp = some (.okayRead (BitVec.ofNat 32 (v.toNat / 2 ^ (24 - 8 * k) % 256))) := by
  obtain ⟨hobuf, hocnt⟩ := h
  have hwaiting : s.ocnt ≠ 0#3 := by
    rw [hocnt]
    interval_cases k <;> decide
  refine ⟨_, exec_pop_of_waiting hwaiting, ⟨?_, ?_⟩, ?_⟩
  · rw [State.answerRead_obuf, State.popByte_obuf, hobuf, ← BitVec.shiftLeft_add, Nat.mul_succ]
  · rw [State.answerRead_ocnt, State.popByte_ocnt, hocnt]
    interval_cases k <;> rfl
  · rw [State.answerRead_resp, s.nextByte_eq, hobuf, toNat_shiftLeft_div v hk]

/-- A DEC without an error has put its block into M and, with no byte popped, into the output buffer (R214). -/
theorem hasPopped_of_dec {s t : State} (hdec : exec .dec s = .next t) (herr : t.err = false) :
    t.HasPopped t.m 0 ∧ t.m.toNat < 2 ^ 31 := by
  obtain rfl : decState s = t := by cases hdec; rfl
  rcases decState_cases s with ⟨-, e⟩ | ⟨-, -, e⟩ | ⟨-, -, -, -, e⟩ <;> rw [e] at herr ⊢
  · cases herr
  · cases herr
  · exact ⟨⟨(BitVec.shiftLeft_zero _).symm, rfl⟩, clearTop_lt _⟩

/-- Settles O30: the four pops of the block in M, and the refusal of one on the buffer they leave. -/
theorem decryptedBytesPopMostSignificantFirst : Obligations.DecryptedBytesPopMostSignificantFirst := by
  intro s t hdec herr
  obtain ⟨h0, hlt⟩ := hasPopped_of_dec hdec herr
  have hfirst : t.m.toNat / 2 ^ 24 < 0x80 := by omega
  obtain ⟨t1, hpop1, h1, hresp1⟩ := h0.exec_pop (by decide)
  obtain ⟨t2, hpop2, h2, hresp2⟩ := h1.exec_pop (by decide)
  obtain ⟨t3, hpop3, h3, hresp3⟩ := h2.exec_pop (by decide)
  obtain ⟨t4, hpop4, ⟨hobuf, hocnt⟩, hresp4⟩ := h3.exec_pop (by decide)
  rw [Nat.mod_eq_of_lt (hfirst.trans (by decide))] at hresp1
  rw [Nat.sub_self, pow_zero, Nat.div_one] at hresp4
  exact ⟨t1, t2, t3, t4, hpop1, hpop2, hpop3, hpop4, hresp1, hresp2, hresp3, hresp4, hfirst,
    hobuf.trans (BitVec.shiftLeft_eq_zero le_rfl), hocnt, exec_of_refuses ((State.refuses_pop t4).mpr hocnt)⟩

/-! ### The round trip of one block (R211, R216) -/

/-- What DEC multiplies up: `g^(k(p-1-d))` and `g^(dk)` are together a power of `g^(p-1)`, which is 1 by Fermat (R211). -/
theorem cipher_roundtrip_modEq {p g d : Nat} (hp : p.Prime) (hg : g % p ≠ 0) (hd : d < p) (k m : Nat) :
    (g ^ k) ^ (p - 1 - d) * ((g ^ d) ^ k * m) ≡ m [MOD p] := by
  have hcoprime : g.Coprime p := ((hp.coprime_iff_not_dvd).mpr (mt Nat.mod_eq_zero_of_dvd hg)).symm
  have hexponent : p - 1 - d + d = p - 1 := by omega
  calc (g ^ k) ^ (p - 1 - d) * ((g ^ d) ^ k * m)
    _ = (g ^ (p - 1)) ^ k * m := by
      rw [pow_right_comm g d k, ← mul_assoc, ← pow_add, hexponent, pow_right_comm]
    _ ≡ 1 ^ k * m [MOD p] := ((Nat.ModEq.pow_card_sub_one_eq_one hp hcoprime).pow k).mul_right m
    _ = m := by rw [one_pow, one_mul]

/-- The formula of DEC on the pair of ENC gives the block back, with a matching key and for every ephemeral exponent
(R195, R211). -/
theorem plainOf_cipher {p g d k m : Nat} (hp : p.Prime) (hlt : p < 2 ^ 32) (hg : g % p ≠ 0) (hd : d < p)
    (hk : k < 2 ^ 32) (hm : m < p) : plainOf p d (cipherFirst g k p) (cipherSecond (g ^ d % p) k p m) = m := by
  have hfirst : cipherFirst g k p ≡ g ^ k [MOD p] := by
    rw [cipherFirst, modPow_eq_pow_mod g hk hp.pos]
    exact Nat.mod_modEq _ p
  have hsecond : cipherSecond (g ^ d % p) k p m ≡ (g ^ d) ^ k * m [MOD p] := by
    rw [cipherSecond, modPow_eq_pow_mod _ hk hp.pos, ← Nat.pow_mod]
    exact (Nat.mod_modEq _ p).trans ((Nat.mod_modEq _ p).mul_right m)
  rw [plainOf_eq hp.pos hlt, ← Nat.mul_mod]
  exact Nat.mod_eq_of_modEq (((hfirst.pow _).mul hsecond).trans (cipher_roundtrip_modEq hp hg hd k m)) hm

/-- An ENC without an error has passed its checks (R193). -/
theorem encCommit_of_no_error {s t : State} (henc : exec .enc s = .next t) (herr : t.err = false) :
    s.block.toNat < s.p.toNat ∧ t = encCommit s := by
  obtain rfl : encState s = t := by cases henc; rfl
  rcases encState_cases s with ⟨-, e⟩ | ⟨-, -, e⟩ | ⟨-, -, hlt, e⟩
  · simp [e] at herr
  · simp [e] at herr
  · exact ⟨hlt, e⟩

section CiphertextOfEnc

variable {s : State} (hp : 0 < s.p.toNat)
include hp

/-- C1 as ENC writes it loses no bit (R195). -/
theorem encCommit_c1_toNat :
    (encCommit s).c1.toNat = cipherFirst s.g.toNat (ephemeral s.p.toNat s.port.draw.1) s.p.toNat :=
  Nat.mod_eq_of_lt ((modPow_lt _ _ hp).trans s.p.isLt)

/-- C2 as ENC writes it loses no bit (R195). -/
theorem encCommit_c2_toNat : (encCommit s).c2.toNat
    = cipherSecond s.e.toNat (ephemeral s.p.toNat s.port.draw.1) s.p.toNat s.block.toNat :=
  Nat.mod_eq_of_lt ((Nat.mod_lt _ hp).trans s.p.isLt)

end CiphertextOfEnc

/-- The block ENC encrypted is what its ciphertext decrypts to under a matching key (R216). -/
theorem decrypted_encCommit {s : State} (hp : s.p.toNat.Prime) (hg : s.g.toNat % s.p.toNat ≠ 0)
    (hd : s.d.toNat < s.p.toNat) (he : s.e.toNat = s.g.toNat ^ s.d.toNat % s.p.toNat)
    (hm : s.block.toNat < s.p.toNat) : (encCommit s).decrypted = s.block := by
  have hk : ephemeral s.p.toNat s.port.draw.1 < 2 ^ 32 := (Nat.mod_lt _ hp.pos).trans s.p.isLt
  have hplain : plainOf s.p.toNat s.d.toNat (encCommit s).c1.toNat (encCommit s).c2.toNat = s.block.toNat := by
    rw [encCommit_c1_toNat hp.pos, encCommit_c2_toNat hp.pos, he]
    exact plainOf_cipher hp s.p.isLt hg hd hk hm
  have hblock : s.block.toNat < 2 ^ 31 := clearTop_lt _
  calc (encCommit s).decrypted
    _ = clearTop (BitVec.ofNat 32 s.block.toNat) := congrArg (fun x => clearTop (BitVec.ofNat 32 x)) hplain
    _ = BitVec.ofNat 32 s.block.toNat := by rw [clearTop_ofNat, Nat.mod_eq_of_lt hblock]
    _ = s.block := by rw [BitVec.ofNat_toNat, BitVec.setWidth_eq]

/-- Settles O31: the ciphertext of ENC is in range, so DEC delivers, and what it delivers is the block. -/
theorem decryptUndoesEncrypt : Obligations.DecryptUndoesEncrypt := by
  intro s t u hp hg hd he hocnt henc herr hdec
  obtain ⟨hm, rfl⟩ := encCommit_of_no_error henc herr
  have hc1 : (encCommit s).c1.toNat < s.p.toNat := by
    rw [encCommit_c1_toNat hp.pos]
    exact modPow_lt _ _ hp.pos
  have hc2 : (encCommit s).c2.toNat < s.p.toNat := by
    rw [encCommit_c2_toNat hp.pos]
    exact Nat.mod_lt _ hp.pos
  obtain rfl : decState (encCommit s) = u := by cases hdec; rfl
  have hblock := decrypted_encCommit hp hg hd he hm
  rw [decState_of_in_range (s := encCommit s) hocnt hd hc1 hc2]
  exact ⟨rfl, rfl, hblock, hblock, rfl⟩

end Machine
end Sys2Proof
end

section
/-! PROOFS. The statements about SRST, FLUSH and the plain accesses (R30, R230 to R233): STATUS as a number, what a word
access of a location with storage does, and the tables of such locations. -/

namespace Sys2Proof
namespace Machine

/-! ### STATUS as a number (R30) -/

/-- A field above all the bits of a word is added to it. -/
theorem toNat_or_shiftLeft {x y : Word} {k : Nat} (hx : x.toNat < 2 ^ k) (hy : 2 ^ k * y.toNat < 2 ^ 32) :
    (x ||| y <<< k).toNat = x.toNat + 2 ^ k * y.toNat := by
  have hshift : (y <<< k).toNat = 2 ^ k * y.toNat := by
    rw [BitVec.toNat_shiftLeft, Nat.shiftLeft_eq, Nat.mul_comm, Nat.mod_eq_of_lt hy]
  rw [BitVec.toNat_or, hshift, Nat.or_comm, ← Nat.two_pow_add_eq_or_of_lt hx, Nat.add_comm]

theorem flagWord_toNat (x : Bool) : (flagWord x).toNat = x.toNat := by cases x <;> rfl

/-- No field of STATUS reaches into the next, so the word is their sum. -/
theorem statusWord_eq (s : State) :
    statusWord s = BitVec.ofNat 32 (s.done.toNat + 2 * s.err.toNat + 16 * s.errcode.toNat + 256 * s.icnt.toNat
      + 4096 * s.ocnt.toNat) := by
  have hdone := s.done.toNat_le
  have herr := s.err.toNat_le
  have herrcode := s.errcode.isLt
  have hicnt := s.icnt.isLt
  have hocnt := s.ocnt.isLt
  have hcode : (s.errcode.setWidth 32).toNat = s.errcode.toNat := BitVec.toNat_setWidth_of_le (by decide)
  have hin : (s.icnt.setWidth 32).toNat = s.icnt.toNat := BitVec.toNat_setWidth_of_le (by decide)
  have hout : (s.ocnt.setWidth 32).toNat = s.ocnt.toNat := BitVec.toNat_setWidth_of_le (by decide)
  have hflags := toNat_or_shiftLeft (x := flagWord s.done) (y := flagWord s.err) (k := 1)
    (by rw [flagWord_toNat]; omega) (by rw [flagWord_toNat]; omega)
  rw [flagWord_toNat, flagWord_toNat] at hflags
  have hupToCode := toNat_or_shiftLeft (y := s.errcode.setWidth 32) (k := 4) (by rw [hflags]; omega) (by omega)
  have hupToInput := toNat_or_shiftLeft (y := s.icnt.setWidth 32) (k := 8) (by rw [hupToCode]; omega) (by omega)
  have hupToOutput := toNat_or_shiftLeft (y := s.ocnt.setWidth 32) (k := 12) (by rw [hupToInput]; omega) (by omega)
  apply BitVec.eq_of_toNat_eq
  rw [statusWord, hupToOutput, hupToInput, hupToCode, hflags, BitVec.toNat_ofNat]
  omega

/-! ### SRST and FLUSH (R230, R231) -/

/-- Settles O32: SRST has one outcome, the reset core with its answer, whose STATUS has every field 0. -/
theorem srstRestoresResetState : Obligations.SrstRestoresResetState := by
  refine ⟨decode_encode (i := .srst) rfl, fun s => ⟨s.resetCore.answerWrite, rfl, ?_⟩⟩
  have hstatus : statusWord s.resetCore.answerWrite = 0#32 := statusWord_eq _
  simp [hstatus]

/-- Settles O33: FLUSH has one outcome, the success with both buffers empty. -/
theorem flushEmptiesBuffers : Obligations.FlushEmptiesBuffers :=
  ⟨decode_encode (i := .flush) rfl, fun _ => rfl⟩

/-! ### A word access of a location with storage (R232, R233) -/

section Locations

variable {s : State} {v : Word} {loc : Reg} {rest : List HostAction}

theorem decodeLocation_offset (loc : Reg) : decodeLocation 4 loc.offset = .ok loc := by cases loc <;> rfl

/-- A word read of a location that gives a value is a plain read. -/
theorem decode_read_of_readReg (hv : s.readReg loc = some v) : decode (.read 4 loc.offset) = .ok (.readReg loc) := by
  simp only [decode, decodeLocation_offset]
  cases loc
  case cmd | bin | bout => cases hv
  all_goals rfl

/-- A word write of a location that takes one is a plain write; only FAULTLOG looks at the value first. -/
theorem decode_write_of_writeReg {t : State} (ht : s.writeReg v loc = some t) (hloc : loc ≠ .faultlog) :
    decode (.write 4 loc.offset v) = .ok (.writeReg loc v) := by
  simp only [decode, decodeLocation_offset]
  cases loc
  case faultlog => exact absurd rfl hloc
  case cmd | status | id | r | q | m | bin | bout | attempts | drawcnt => cases ht
  all_goals rfl

/-- What a location holds does not depend on what the host will do next. -/
theorem State.readReg_host (s : State) (rest : List HostAction) (loc : Reg) :
    State.readReg { s with host := rest } loc = s.readReg loc := by
  cases loc <;> rfl

/-- A plain write neither reads nor writes what the host will do next. -/
theorem State.writeReg_host (s : State) (rest : List HostAction) (v : Word) (loc : Reg) :
    State.writeReg { s with host := rest } v loc = (s.writeReg v loc).map ({ · with host := rest }) := by
  cases loc <;> rfl

theorem step_read_of_readReg (hhost : s.host = .access (.read 4 loc.offset) :: rest) (hv : s.readReg loc = some v) :
    step s = .next { s with host := rest, resp := some (.okayRead v) } := by
  rw [step_access s _ rest hhost, serveAccess_of_readReg _ (decode_read_of_readReg hv), serveRead, s.readReg_host, hv]
  rfl

theorem step_write_of_writeReg {t : State} (hhost : s.host = .access (.write 4 loc.offset v) :: rest)
    (ht : s.writeReg v loc = some t) (hloc : loc ≠ .faultlog) :
    step s = .next { t with host := rest, resp := some .okayWrite } := by
  rw [step_access s _ rest hhost, serveAccess_of_writeReg _ (decode_write_of_writeReg ht hloc), serveWrite,
    s.writeReg_host, ht]
  rfl

end Locations

/-! ### The tables of the locations with storage (R21, R232, R233) -/

/-- What a word read returns, by offset: the locations of the address map that give a value. -/
def State.readTable (s : State) : List (Nat × Word) :=
  registerMap.filterMap fun (off, loc) => (s.readReg loc).map (off, ·)

/-- The state a word write of `v` leaves, by offset: the locations of the address map that store it. -/
def State.writeTable (s : State) (v : Word) : List (Nat × State) :=
  (registerMap.filter fun (_, loc) => loc ≠ .faultlog).filterMap fun (off, loc) => (s.writeReg v loc).map (off, ·)

theorem offset_of_mem_registerMap : ∀ entry ∈ registerMap, entry.1 = entry.2.offset := by decide

theorem exists_readReg_of_mem_readTable {s : State} {off : Nat} {v : Word} (h : (off, v) ∈ s.readTable) :
    ∃ loc, off = Reg.offset loc ∧ s.readReg loc = some v := by
  obtain ⟨⟨off', loc⟩, hmap, hentry⟩ := List.mem_filterMap.mp h
  obtain ⟨v', hv, ⟨⟩⟩ := Option.map_eq_some_iff.mp hentry
  exact ⟨loc, offset_of_mem_registerMap _ hmap, hv⟩

theorem exists_writeReg_of_mem_writeTable {s t : State} {off : Nat} {v : Word} (h : (off, t) ∈ s.writeTable v) :
    ∃ loc, off = Reg.offset loc ∧ loc ≠ .faultlog ∧ s.writeReg v loc = some t := by
  obtain ⟨⟨off', loc⟩, hfilter, hentry⟩ := List.mem_filterMap.mp h
  obtain ⟨hmap, hloc⟩ := List.mem_filter.mp hfilter
  obtain ⟨t', ht, ⟨⟩⟩ := Option.map_eq_some_iff.mp hentry
  exact ⟨loc, offset_of_mem_registerMap _ hmap, of_decide_eq_true hloc, ht⟩

/-- Settles O40: the entries listed are the read table, with STATUS written as a number. -/
theorem plainReadReturnsCurrentValue : Obligations.PlainReadReturnsCurrentValue := by
  intro s off v rest hhost hmem
  rw [← statusWord_eq] at hmem
  have htable : (off, v) ∈ s.readTable := hmem
  obtain ⟨loc, rfl, hv⟩ := exists_readReg_of_mem_readTable htable
  exact step_read_of_readReg hhost hv

/-- Settles O41: the entries listed are the write table. -/
theorem plainWriteStoresValue : Obligations.PlainWriteStoresValue := by
  intro s off v t rest hhost hmem
  have htable : (off, t) ∈ s.writeTable v := hmem
  obtain ⟨loc, rfl, hloc, ht⟩ := exists_writeReg_of_mem_writeTable htable
  exact step_write_of_writeReg hhost ht hloc

end Machine
end Sys2Proof
end

section
/-! PROOFS. The statements about exceptions and reset (R245, R260, R270): what a command that ends in an error leaves, and
what a step does where the host does nothing, resets the core or seeds the source. -/

namespace Sys2Proof
namespace Machine

/-! ### A command that ends in an error (R245, R176) -/

/-- A command that ends in an error has written ATTEMPTS and the random-source port at most before it raised the error. -/
theorem exists_raiseError_of_err {i : Instr} {s t : State} (h : exec i s = .next t) (hc : isCommand i = true)
    (herr : t.err = true) : ∃ k a pt, t = State.raiseError { s with attempts := a, port := pt } k := by
  have hsrst : i ≠ .srst := by
    rintro rfl
    cases h
    cases herr
  rcases command_cases i s t h hc hsrst with ⟨_, rfl⟩ | hraise
  · cases herr
  · exact hraise

/-- Settles O44: ATTEMPTS and the port are not among the registers named, and the error itself writes the flags, its log
bit and the response only. -/
theorem failedCommandWritesNoResult : Obligations.FailedCommandWritesNoResult := by
  intro i s t h hc herr
  obtain ⟨k, _, _, rfl⟩ := exists_raiseError_of_err h hc herr
  simp [State.raiseError_eq_fails, State.fails]

/-! ### The host actions that are no access (R260, R270, R74) -/

theorem step_of_host_nil {s : State} (h : s.host = []) : step s = .next s := by
  simp [step, serveNext, h]

theorem step_reset {s : State} {rest : List HostAction} (h : s.host = .reset :: rest) :
    step s = .next (State.resetCore { s with host := rest }) := by
  simp [step, serveNext, h, serve]

theorem step_seedSource {s : State} {v : Word} {rest : List HostAction} (h : s.host = .seedSource v :: rest) :
    step s = .next (seedOutside v { s with host := rest }) := by
  simp [step, serveNext, h, serve]

/-- Settles O34: the reset core is the start state but for the random source and the host's list; the registers of the
start state are closed values. -/
theorem resetInputClearsEveryRegister : Obligations.ResetInputClearsEveryRegister :=
  ⟨fun _ _ h => ⟨_, step_reset h, rfl, rfl, rfl, rfl⟩, by decide⟩

/-- Settles O52: the step of each of the three cases, the seeding written out. -/
theorem idleAndOutsideSeedingLeaveTheCore : Obligations.IdleAndOutsideSeedingLeaveTheCore :=
  ⟨fun _ => step_of_host_nil, fun _ _ _ => step_seedSource, fun _ _ h => ⟨_, step_reset h, rfl⟩⟩

end Machine
end Sys2Proof
end
